-- ==== Sys2Proof/Word.lean ====
section
/-! DEFINITION. The word types of the CORE (00_scope.md R6, R10; 10_state.md R21). -/

namespace Sys2Proof

/-- R6: `XLEN = 32`, the width of a general register, of a word of `BUF` and of a command word. -/
abbrev Word := BitVec 32

/-- R6: `SLEN = 16`, the width of a sample, of a ROM coefficient and of the `imm` field. -/
abbrev Half := BitVec 16

/-- R21, R86: a general register's number; all eight values are valid. -/
abbrev RegNum := Fin 8

end Sys2Proof
end

