-- ==== Sys2Proof/Syntax.lean ====
section
/-! DEFINITION. The commands of the CORE, one constructor for each of the 26 rows of 30_encoding.md R84, with the fields
that the row's format uses (R83), in the operand order of the assembler (R89). -/

namespace Sys2Proof

/-- A command. Register fields are register numbers (R86); `imm` is the raw 16-bit field, read as each command's rule says. -/
inductive Instr where
  /-- R190 -/
  | nop
  /-- R191 -/
  | li (rd : RegNum) (imm : Half)
  /-- R192 -/
  | lih (rd : RegNum) (imm : Half)
  /-- R195; `imm` is the special register's number -/
  | mfs (rd : RegNum) (imm : Half)
  /-- R196; `imm` is the special register's number -/
  | mts (imm : Half) (rs1 : RegNum)
  /-- R198 -/
  | ldw (rd : RegNum) (imm : Half) (rs1 : RegNum)
  /-- R199 -/
  | stw (rs2 : RegNum) (imm : Half) (rs1 : RegNum)
  /-- R197 -/
  | clrov
  /-- R101 -/
  | norm32 (rd rs1 : RegNum)
  /-- R102 -/
  | norm16 (rd rs1 : RegNum)
  /-- R112 -/
  | add32 (rd rs1 rs2 : RegNum)
  /-- R113 -/
  | sub32 (rd rs1 rs2 : RegNum)
  /-- R114 -/
  | add16 (rd rs1 rs2 : RegNum)
  /-- R115 -/
  | sub16 (rd rs1 rs2 : RegNum)
  /-- R116 -/
  | mul16 (rd rs1 rs2 : RegNum)
  /-- R117 -/
  | mac16 (rd rs1 rs2 : RegNum)
  /-- R118 -/
  | msu16 (rd rs1 rs2 : RegNum)
  /-- R119 -/
  | rnd16 (rd rs1 : RegNum)
  /-- R120 -/
  | mulq (rd rs1 rs2 : RegNum)
  /-- R121 -/
  | shl32 (rd rs1 rs2 : RegNum)
  /-- R122 -/
  | shr32 (rd rs1 rs2 : RegNum)
  /-- R193 -/
  | mov (rd rs1 : RegNum)
  /-- R147 -/
  | fft4l (rs1 : RegNum)
  /-- R148 -/
  | fft4s (rs1 : RegNum)
  /-- R170 -/
  | mixfft (rs1 : RegNum)
  /-- R180 -/
  | postrot (rs1 : RegNum)
deriving DecidableEq, Repr

end Sys2Proof
end

