-- ==== Sys2Proof/WellFormed.lean ====
section
/-! DEFINITION. The static check of a command: what can be said of it without a state.

The widths of the operand fields are in the types of Syntax.lean (R82), so a command that breaks them cannot be written
down. What is left is the number of a special register (R27, R86): `MFS` names one that exists, `MTS` one that can be
written. A command that fails this check is still a command with an encoding (R84) and a meaning: it takes Fault(4) in
every state (R195, R196). So encoding, decoding and execution are stated for ALL commands, well-formed or not. -/

namespace Sys2Proof

/-- R195: `MFS` reads special registers 0 to 3. -/
def readableSregNumber (n : Half) : Bool := decide (n.toNat ≤ 3)

/-- R196: `MTS` writes special registers 0 to 2. -/
def writableSregNumber (n : Half) : Bool := decide (n.toNat ≤ 2)

/-- The command names only special registers that it can reach (R27). -/
def Instr.wellFormed : Instr → Bool
  | .mfs _ n => readableSregNumber n
  | .mts n _ => writableSregNumber n
  | .nop | .li .. | .lih .. | .ldw .. | .stw .. | .clrov | .norm32 .. | .norm16 .. | .add32 .. | .sub32 .. | .add16 ..
  | .sub16 .. | .mul16 .. | .mac16 .. | .msu16 .. | .rnd16 .. | .mulq .. | .shl32 .. | .shr32 .. | .mov .. | .fft4l ..
  | .fft4s .. | .mixfft .. | .postrot .. => true

end Sys2Proof
end

