-- ==== Sys2Proof/Decode.lean ====
section
/-! DEFINITION. The decoder, total on every 32-bit word and rejecting by name, and after it the encoder, both from
30_encoding.md R80 to R87. A command word is a 32-bit value, not a byte string (20_memory.md R63), so no byte order enters. -/

namespace Sys2Proof

/-- Why a word is no command (R80 steps 3 and 4, R87). All three raise `Fault(1)`. -/
inductive DecodeError where
  /-- its `op` is one of the 38 unassigned values -/
  | unassignedOpcode
  /-- its `z` bit is 1 -/
  | zBitSet
  /-- a field that its opcode does not use is not zero -/
  | unusedFieldNonzero
deriving DecidableEq, Repr

/-- R83: a format is the set of fields a command uses. -/
structure Format where
  rd : Bool
  rs1 : Bool
  rs2 : Bool
  imm : Bool
deriving DecidableEq, Repr

/-! ### Cutting the fields of a word (R82) -/

/-- R82: `op`, bits 31:26. -/
def fieldOp (w : Word) : BitVec 6 := w.extractLsb' 26 6

/-- R82: `rd`, bits 25:23. -/
def fieldRd (w : Word) : RegNum := (w.extractLsb' 23 3).toFin

/-- R82: `rs1`, bits 22:20. -/
def fieldRs1 (w : Word) : RegNum := (w.extractLsb' 20 3).toFin

/-- R82: `rs2`, bits 19:17. -/
def fieldRs2 (w : Word) : RegNum := (w.extractLsb' 17 3).toFin

/-- R82: `z`, bit 16. -/
def fieldZ (w : Word) : BitVec 1 := w.extractLsb' 16 1

/-- R82: `imm`, bits 15:0. -/
def fieldImm (w : Word) : Half := w.extractLsb' 0 16

/-! ### The formats (R83) -/

/-- R83, format `N`: uses nothing. -/
def formatN : Format := ⟨false, false, false, false⟩

/-- R83, format `DI`: uses `rd`, `imm`. -/
def formatDI : Format := ⟨true, false, false, true⟩

/-- R83, format `SI`: uses `rs1`, `imm`. -/
def formatSI : Format := ⟨false, true, false, true⟩

/-- R83, format `DSI`: uses `rd`, `rs1`, `imm`. -/
def formatDSI : Format := ⟨true, true, false, true⟩

/-- R83, format `SSI`: uses `rs1`, `rs2`, `imm`. -/
def formatSSI : Format := ⟨false, true, true, true⟩

/-- R83, format `DS`: uses `rd`, `rs1`. -/
def formatDS : Format := ⟨true, true, false, false⟩

/-- R83, format `DSS`: uses `rd`, `rs1`, `rs2`. -/
def formatDSS : Format := ⟨true, true, true, false⟩

/-- R83, format `S`: uses `rs1`. -/
def formatS : Format := ⟨false, true, false, false⟩

/-- R85: some field that the format does not use is not zero. -/
def unusedFieldNonzero (f : Format) (w : Word) : Bool :=
  (!f.rd && fieldRd w != 0) || (!f.rs1 && fieldRs1 w != 0) || (!f.rs2 && fieldRs2 w != 0) || (!f.imm && fieldImm w != 0)

/-- R80 step 4: the word is the command `i` of format `f` when its `z` bit and its unused fields are zero. -/
def accept (f : Format) (w : Word) (i : Instr) : Except DecodeError Instr :=
  if fieldZ w ≠ 0 then .error .zBitSet
  else if unusedFieldNonzero f w then .error .unusedFieldNonzero
  else .ok i

/-- R80 steps 2 to 4 with the opcode map of R84: the command a word is, or why it is none. -/
def decode (w : Word) : Except DecodeError Instr :=
  match (fieldOp w).toNat with
  | 0x00 => accept formatN w .nop
  | 0x01 => accept formatDI w (.li (fieldRd w) (fieldImm w))
  | 0x02 => accept formatDI w (.lih (fieldRd w) (fieldImm w))
  | 0x03 => accept formatDI w (.mfs (fieldRd w) (fieldImm w))
  | 0x04 => accept formatSI w (.mts (fieldImm w) (fieldRs1 w))
  | 0x05 => accept formatDSI w (.ldw (fieldRd w) (fieldImm w) (fieldRs1 w))
  | 0x06 => accept formatSSI w (.stw (fieldRs2 w) (fieldImm w) (fieldRs1 w))
  | 0x07 => accept formatN w .clrov
  | 0x08 => accept formatDS w (.norm32 (fieldRd w) (fieldRs1 w))
  | 0x09 => accept formatDS w (.norm16 (fieldRd w) (fieldRs1 w))
  | 0x0A => accept formatDSS w (.add32 (fieldRd w) (fieldRs1 w) (fieldRs2 w))
  | 0x0B => accept formatDSS w (.sub32 (fieldRd w) (fieldRs1 w) (fieldRs2 w))
  | 0x0C => accept formatDSS w (.add16 (fieldRd w) (fieldRs1 w) (fieldRs2 w))
  | 0x0D => accept formatDSS w (.sub16 (fieldRd w) (fieldRs1 w) (fieldRs2 w))
  | 0x0E => accept formatDSS w (.mul16 (fieldRd w) (fieldRs1 w) (fieldRs2 w))
  | 0x0F => accept formatDSS w (.mac16 (fieldRd w) (fieldRs1 w) (fieldRs2 w))
  | 0x10 => accept formatDSS w (.msu16 (fieldRd w) (fieldRs1 w) (fieldRs2 w))
  | 0x11 => accept formatDS w (.rnd16 (fieldRd w) (fieldRs1 w))
  | 0x12 => accept formatDSS w (.mulq (fieldRd w) (fieldRs1 w) (fieldRs2 w))
  | 0x13 => accept formatDSS w (.shl32 (fieldRd w) (fieldRs1 w) (fieldRs2 w))
  | 0x14 => accept formatDSS w (.shr32 (fieldRd w) (fieldRs1 w) (fieldRs2 w))
  | 0x15 => accept formatDS w (.mov (fieldRd w) (fieldRs1 w))
  | 0x18 => accept formatS w (.fft4l (fieldRs1 w))
  | 0x19 => accept formatS w (.fft4s (fieldRs1 w))
  | 0x1A => accept formatS w (.mixfft (fieldRs1 w))
  | 0x1B => accept formatS w (.postrot (fieldRs1 w))
  | _ => .error .unassignedOpcode

/-! ### The encoder -/

/-- R82: the word with these fields and `z = 0`. -/
def commandWord (op : BitVec 6) (rd rs1 rs2 : RegNum) (imm : Half) : Word :=
  op ++ BitVec.ofFin (w := 3) rd ++ BitVec.ofFin (w := 3) rs1 ++ BitVec.ofFin (w := 3) rs2 ++ 0#1 ++ imm

/-- R84, R85: the word of a command, its unused fields zero. -/
def encode : Instr → Word
  | .nop => commandWord 0x00 0 0 0 0
  | .li rd imm => commandWord 0x01 rd 0 0 imm
  | .lih rd imm => commandWord 0x02 rd 0 0 imm
  | .mfs rd imm => commandWord 0x03 rd 0 0 imm
  | .mts imm rs1 => commandWord 0x04 0 rs1 0 imm
  | .ldw rd imm rs1 => commandWord 0x05 rd rs1 0 imm
  | .stw rs2 imm rs1 => commandWord 0x06 0 rs1 rs2 imm
  | .clrov => commandWord 0x07 0 0 0 0
  | .norm32 rd rs1 => commandWord 0x08 rd rs1 0 0
  | .norm16 rd rs1 => commandWord 0x09 rd rs1 0 0
  | .add32 rd rs1 rs2 => commandWord 0x0A rd rs1 rs2 0
  | .sub32 rd rs1 rs2 => commandWord 0x0B rd rs1 rs2 0
  | .add16 rd rs1 rs2 => commandWord 0x0C rd rs1 rs2 0
  | .sub16 rd rs1 rs2 => commandWord 0x0D rd rs1 rs2 0
  | .mul16 rd rs1 rs2 => commandWord 0x0E rd rs1 rs2 0
  | .mac16 rd rs1 rs2 => commandWord 0x0F rd rs1 rs2 0
  | .msu16 rd rs1 rs2 => commandWord 0x10 rd rs1 rs2 0
  | .rnd16 rd rs1 => commandWord 0x11 rd rs1 0 0
  | .mulq rd rs1 rs2 => commandWord 0x12 rd rs1 rs2 0
  | .shl32 rd rs1 rs2 => commandWord 0x13 rd rs1 rs2 0
  | .shr32 rd rs1 rs2 => commandWord 0x14 rd rs1 rs2 0
  | .mov rd rs1 => commandWord 0x15 rd rs1 0 0
  | .fft4l rs1 => commandWord 0x18 0 rs1 0 0
  | .fft4s rs1 => commandWord 0x19 0 rs1 0 0
  | .mixfft rs1 => commandWord 0x1A 0 rs1 0 0
  | .postrot rs1 => commandWord 0x1B 0 rs1 0 0

/-! ### The opcode table (R84) -/

/-- R84: a row of the opcode map, its `mask` 1 at every fixed bit and its `pattern` (the table's `match`) the word with every
used field zero. -/
structure OpcodeRow where
  mnemonic : String
  mask : Word
  pattern : Word
deriving DecidableEq, Repr

/-- R84: the 26 rows. -/
def opcodeTable : List OpcodeRow :=
  [ ⟨"NOP", 0xFFFFFFFF, 0x00000000⟩, ⟨"LI", 0xFC7F0000, 0x04000000⟩,
    ⟨"LIH", 0xFC7F0000, 0x08000000⟩, ⟨"MFS", 0xFC7F0000, 0x0C000000⟩,
    ⟨"MTS", 0xFF8F0000, 0x10000000⟩, ⟨"LDW", 0xFC0F0000, 0x14000000⟩,
    ⟨"STW", 0xFF810000, 0x18000000⟩, ⟨"CLROV", 0xFFFFFFFF, 0x1C000000⟩,
    ⟨"NORM32", 0xFC0FFFFF, 0x20000000⟩, ⟨"NORM16", 0xFC0FFFFF, 0x24000000⟩,
    ⟨"ADD32", 0xFC01FFFF, 0x28000000⟩, ⟨"SUB32", 0xFC01FFFF, 0x2C000000⟩,
    ⟨"ADD16", 0xFC01FFFF, 0x30000000⟩, ⟨"SUB16", 0xFC01FFFF, 0x34000000⟩,
    ⟨"MUL16", 0xFC01FFFF, 0x38000000⟩, ⟨"MAC16", 0xFC01FFFF, 0x3C000000⟩,
    ⟨"MSU16", 0xFC01FFFF, 0x40000000⟩, ⟨"RND16", 0xFC0FFFFF, 0x44000000⟩,
    ⟨"MULQ", 0xFC01FFFF, 0x48000000⟩, ⟨"SHL32", 0xFC01FFFF, 0x4C000000⟩,
    ⟨"SHR32", 0xFC01FFFF, 0x50000000⟩, ⟨"MOV", 0xFC0FFFFF, 0x54000000⟩,
    ⟨"FFT4L", 0xFF8FFFFF, 0x60000000⟩, ⟨"FFT4S", 0xFF8FFFFF, 0x64000000⟩,
    ⟨"MIXFFT", 0xFF8FFFFF, 0x68000000⟩, ⟨"POSTROT", 0xFF8FFFFF, 0x6C000000⟩ ]

/-- R84: the mnemonic of a command's row. -/
def Instr.mnemonic : Instr → String
  | .nop => "NOP"
  | .li .. => "LI"
  | .lih .. => "LIH"
  | .mfs .. => "MFS"
  | .mts .. => "MTS"
  | .ldw .. => "LDW"
  | .stw .. => "STW"
  | .clrov => "CLROV"
  | .norm32 .. => "NORM32"
  | .norm16 .. => "NORM16"
  | .add32 .. => "ADD32"
  | .sub32 .. => "SUB32"
  | .add16 .. => "ADD16"
  | .sub16 .. => "SUB16"
  | .mul16 .. => "MUL16"
  | .mac16 .. => "MAC16"
  | .msu16 .. => "MSU16"
  | .rnd16 .. => "RND16"
  | .mulq .. => "MULQ"
  | .shl32 .. => "SHL32"
  | .shr32 .. => "SHR32"
  | .mov .. => "MOV"
  | .fft4l .. => "FFT4L"
  | .fft4s .. => "FFT4S"
  | .mixfft .. => "MIXFFT"
  | .postrot .. => "POSTROT"

/-- The instruction the decoder reads from an instruction whose bits are `w`, of which the table gives `nbits`; the bits
above `nbits` are zero (R81: a command is exactly one 32-bit word). -/
def decodeTableWord (nbits w : Nat) : Option Instr := (decode (BitVec.ofNat 32 (w % 2 ^ nbits))).toOption

end Sys2Proof
end

