-- ==== Sys2Proof/Config.lean ====
section
/-! DEFINITION. What an implementation of the CORE fixes (00_scope.md R6 to R9) and the one free value (10_state.md R40).
The values R9 gives the fields of `Config` by default, the ROM tables among them, stand in Machine/Rom.lean. -/

namespace Sys2Proof

/-- R7: `BUF_WORDS`, the number of words of the sample buffer. -/
abbrev bufWords : Nat := 2048

/-- R8: the size of the short transform in complex points. -/
abbrev nShort : Nat := 64

/-- R8: the size of the long transform in complex points. -/
abbrev nLong : Nat := 256

/-- R8: the size of the mixed-radix transform and of the post-rotation in complex points, `2 * N_LONG`. -/
abbrev nMix : Nat := 512

/-- R17, R36: one ROM entry, the cosine and the sine of one angle in Q15. -/
structure Coef where
  c : Half
  s : Half
deriving DecidableEq, Repr

/-- R9: the scale constants and the ROMs, constants of an instance of the CORE. -/
structure Config where
  /-- `SHIFT_SHORT`: the right shift at the end of every level of the short transform (R148). -/
  shiftShort : Nat
  /-- `SCHED_LONG[0..3]`: the right shift at the end of level 0, 1, 2, 3 of the long transform (R147). -/
  schedLong : Vector Nat 4
  /-- `THR_SHORT`: below this peak the short transform makes no pre-shift (R148). -/
  thrShort : Nat
  /-- `HEAD_SHORT`: the headroom bits the short pre-shift restores (R148). -/
  headShort : Nat
  /-- `HEAD_MIX`: the headroom bits the mixed-radix normalisation leaves (R171). -/
  headMix : Nat
  /-- `MIX_SHIFT_FLOOR`: the floor of the mixed-radix normalisation shift, negative meaning left (R171). -/
  mixShiftFloor : Int
  /-- `HEAD_ROT`: the headroom bits the post-rotation normalisation leaves (R181). -/
  headRot : Nat
  /-- `TW[0..383]`: the twiddle ROM (R50). -/
  tw : List Coef
  /-- `ROT[0..511]`: the rotation ROM (R52). -/
  rot : List Coef
deriving DecidableEq, Repr

/-- FREE VALUE (log 1). R40: what word `index` of `BUF` holds after the `Reset` number `resets`, until something writes it:
"some 32-bit value, not necessarily the same at two resets". It has no body, so nothing can be proved of it. -/
opaque Config.bufAtReset (resets index : Nat) : Word

end Sys2Proof
end

