-- ==== Sys2Proof/Machine/Flags.lean ====
section
/-! DEFINITION. Saturation and the overflow it signals (00_scope.md R13), the only flag computation of the CORE: there is no
carry, zero, negative or condition code (10_state.md R26). -/

namespace Sys2Proof.Machine

/-- A result together with whether computing it saturated anywhere. `OV` is a sticky OR (R24), so all that a computation can
do to it is said by one bit, and the order of evaluation does not matter (R143). -/
structure Sat (α : Type) where
  val : α
  ov : Bool
deriving DecidableEq, Repr

/-- R13: `sat32`. -/
def sat32 (x : Int) : Sat Word :=
  if x > 2 ^ 31 - 1 then ⟨0x7FFFFFFF, true⟩
  else if x < -(2 ^ 31) then ⟨0x80000000, true⟩
  else ⟨BitVec.ofInt 32 x, false⟩

/-- R13: `sat16`. -/
def sat16 (x : Int) : Sat Half :=
  if x > 2 ^ 15 - 1 then ⟨0x7FFF, true⟩
  else if x < -(2 ^ 15) then ⟨0x8000, true⟩
  else ⟨BitVec.ofInt 16 x, false⟩

/-- A list of results, overflowed when one of them did. -/
def Sat.collect {α : Type} (l : List (Sat α)) : Sat (List α) := ⟨l.map Sat.val, l.any Sat.ov⟩

end Sys2Proof.Machine
end

