-- ==== Sys2Proof/Machine/Operands.lean ====
section
/-! DEFINITION. How a word is read as an operand (00_scope.md R10, R18, R19; 30_encoding.md R86) and the shifts and the
fractional multiply on operands (R12, R14, R16). -/

namespace Sys2Proof.Machine

/-- R10: `s32(w)`, the signed reading of a word. -/
def s32 (w : Word) : Int := w.toInt

/-- R10: `s16(w)`, the signed reading of bits 15:0 of a word. -/
def s16 (w : Word) : Int := (w.setWidth 16).toInt

/-- R10: `sext_16` of a 16-bit value: sign-extended to 32 bits. -/
def sext16 (h : Half) : Word := h.signExtend 32

/-- R121: the shift count of a register, its bits 4:0. -/
def shiftCount (w : Word) : Nat := (w.extractLsb' 0 5).toNat

/-- R12: `asr(v, n)`, the arithmetic right shift, `floor(v / 2^n)`. -/
def asr (v : Word) (n : Nat) : Word := v.sshiftRight n

/-- R16: `shs(v, r)`, the signed scale shift: right by `r`, or left by `-r` with saturation when `r` is negative. -/
def shs (v : Word) (r : Int) : Sat Word :=
  if 0 ≤ r then ⟨asr v r.toNat, false⟩ else sat32 (s32 v * 2 ^ (-r).toNat)

/-- R14: `fmul(x, c)`, the 32 by 16 fractional multiply, rounded to nearest. -/
def fmul (x : Word) (c : Half) : Sat Word := sat32 ((s32 x * c.toInt + 0x4000) / 2 ^ 15)

/-- R18: `mag(v)`. Its bit 31 is always 0 and is left off, which makes it a value of `PEAK` (R29). -/
def mag (v : Word) : BitVec 31 := (v ^^^ v.sshiftRight 31).setWidth 31

/-- R19: `bitlen`. -/
def bitlen (m : Nat) : Nat := if m = 0 then 0 else m.log2 + 1

/-- R19, R100: `clrsb_W(v)`, the number of redundant sign bits, for a value of any width. -/
def clrsb {w : Nat} (v : BitVec w) : Nat := w - 1 - bitlen (v ^^^ v.sshiftRight (w - 1)).toNat

/-- R15: `drev4_d(p)`, the base-4 digit reversal over `d` digits. -/
def drev4 : Nat → Nat → Nat
  | 0, _ => 0
  | d + 1, p => p % 4 * 4 ^ d + drev4 d (p / 4)

end Sys2Proof.Machine
end

