-- ==== Sys2Proof/Machine/State.lean ====
section
/-! DEFINITION. The state of the machine: the whole architectural state of the CORE (10_state.md R20), the host's side of
the interface (20_memory.md R60), and the state right after reset (R39, R40). -/

namespace Sys2Proof.Machine

/-- R27: the four special registers. -/
inductive SReg where
  /-- number 0 -/
  | status
  /-- number 1 -/
  | peak
  /-- number 2 -/
  | exp
  /-- number 3 -/
  | ecmd
deriving DecidableEq, Repr

/-- R27, R60: the special registers that can be written, numbers 0 to 2. -/
inductive WritableSReg where
  /-- number 0: only bit 0, `OV`, takes the written value -/
  | status
  /-- number 1: bits 30:0 -/
  | peak
  /-- number 2 -/
  | exp
deriving DecidableEq, Repr

/-- R211: the causes of the one fault. -/
inductive Cause where
  /-- code 1: an unassigned opcode, `z = 1`, or a nonzero field that the opcode does not use -/
  | illegalCommand
  /-- code 2: a buffer index or a transform's run outside `BUF` -/
  | bufferRange
  /-- code 3: the base of a transform's run is odd -/
  | oddBase
  /-- code 4: a special register that does not exist, or `MTS` to `ECMD` -/
  | badSpecialRegister
deriving DecidableEq, Repr

/-- R60: the eight kinds of transaction, the CORE's whole outside. The operands' types hold exactly the stated index ranges:
"an index outside the stated range is not a transaction" (log 8). -/
inductive Transaction where
  /-- `Reset` -/
  | reset
  /-- `HostCmd(w)` -/
  | cmd (w : Word)
  /-- `HostReadReg(i)`, `0 <= i <= 7` -/
  | readReg (i : RegNum)
  /-- `HostWriteReg(i, v)` -/
  | writeReg (i : RegNum) (v : Word)
  /-- `HostReadSreg(n)`, `0 <= n <= 3` -/
  | readSreg (n : SReg)
  /-- `HostWriteSreg(n, v)`, `0 <= n <= 2` -/
  | writeSreg (n : WritableSReg) (v : Word)
  /-- `HostReadBuf(a)`, `0 <= a < BUF_WORDS` -/
  | readBuf (a : Fin bufWords)
  /-- `HostWriteBuf(a, v)`, `0 <= a < BUF_WORDS` -/
  | writeBuf (a : Fin bufWords) (v : Word)
deriving DecidableEq, Repr

/-- R34: `BUF`, as the list of the words written since reset, each with its index, in one canonical form (`Memory.wf`,
Ops.lean): the indices rise strictly and lie below `BUF_WORDS`. A cell is one whole word, the smallest thing any access
moves (R63; log 7). An index that is not listed has not been written since reset (R40). -/
abbrev Memory := List (Nat × Word)

/-- R20: the architectural state, and after it the three fields that are the model's own. -/
structure State where
  /-- R21: the general registers `r0 .. r7` -/
  regs : Vector Word 8
  /-- R24: the sticky overflow flag `OV`, `STATUS[0]` -/
  ov : Bool
  /-- R28, R212: the fault latch `ERR`, `STATUS[1]` -/
  err : Bool
  /-- R28, R211: the cause code `CAUSE`, `STATUS[7:4]` -/
  cause : BitVec 4
  /-- R29: `PEAK`; bit 31 is hardwired 0 and not stored (log 17) -/
  peak : BitVec 31
  /-- R30: `EXP`, read as signed -/
  exp : Word
  /-- R31: `ECMD`, the command word that raised the fault which set `ERR` -/
  ecmd : Word
  /-- R34: the sample buffer `BUF` -/
  buf : Memory
  /-- the model's own: how many `Reset` transactions since power-on; it selects the contents `BUF` came up with (log 2) -/
  resets : Nat
  /-- the model's own: the transactions the host has still to issue, oldest first (R23, R60; log 3) -/
  pending : List Transaction
  /-- the model's own: what the latest transaction returned to the host, if it returned a value (R60; log 5) -/
  reply : Option Word
deriving DecidableEq, Repr

/-- Reasons for which a step could stop the machine. There is none: the CORE's one exceptional event, the fault of R210, is
an ordinary next state (R212), every command terminates (R236), and no behaviour is undefined (R240). So the type has no
constructor, and a step that ends in `Host.Outcome.fault` cannot be written (log 20). Safe. -/
inductive Fault where
deriving DecidableEq, Repr

/-- Reasons for which a step could have no meaning. -/
inductive Refusal where
  /-- Raised by an arm of `exec` whose instruction has no meaning yet. No arm raises it: all 26 have theirs. Safe. -/
  | notModelled (mnemonic : String)
deriving DecidableEq, Repr

/-- What a meaning answers. -/
abbrev Result := Host.Outcome State Fault Refusal

/-- R39, R230: the state after the power-on reset. Every register is 0; nothing of `BUF` has been written, so every word of
it is unspecified (R40); the host has issued nothing yet (R231). -/
def State.reset : State where
  regs := Vector.replicate 8 0
  ov := false
  err := false
  cause := 0
  peak := 0
  exp := 0
  ecmd := 0
  buf := []
  resets := 0
  pending := []
  reply := none

end Sys2Proof.Machine
end

