-- ==== Sys2Proof/Machine/Ops.lean ====
section
/-! DEFINITION. The named operations over registers, special registers and `BUF`, the checks that can fault, and taking the
fault. There is no operation of returning from a fault: only `Reset` leaves the faulted condition (60_exceptions.md R215). -/

namespace Sys2Proof.Machine

/-! ### General registers (R11, R21) -/

/-- R11: `r[i]`. -/
def State.reg (s : State) (i : RegNum) : Word := s.regs[i.val]

/-- R11: `r[i] <- v`. -/
def State.setReg (s : State) (i : RegNum) (v : Word) : State := { s with regs := s.regs.set i.val v i.isLt }

/-! ### Flag and special registers (R24 to R31) -/

/-- R24: `OV` is sticky: a saturation sets it, and nothing arithmetic clears it. -/
def State.orOv (s : State) (saturated : Bool) : State := { s with ov := s.ov || saturated }

/-- R197, R196, R60: `OV` written outright. -/
def State.setOv (s : State) (b : Bool) : State := { s with ov := b }

/-- R29: `PEAK <- p`. -/
def State.setPeak (s : State) (p : BitVec 31) : State := { s with peak := p }

/-- R30: `EXP <- v`, overwritten and never accumulated. -/
def State.setExp (s : State) (v : Word) : State := { s with exp := v }

/-- R29: `PEAK` read as a word, its bit 31 zero. -/
def State.peakWord (s : State) : Word := s.peak.setWidth 32

/-- R28: `STATUS = OV + 2*ERR + 16*CAUSE`, bits 3:2 and 31:8 zero. -/
def State.statusWord (s : State) : Word :=
  0#24 ++ s.cause ++ 0#2 ++ BitVec.ofBool s.err ++ BitVec.ofBool s.ov

/-- R195, R60: the value a special register reads as. Reading changes nothing (R66). -/
def State.readSreg (s : State) : SReg → Word
  | .status => s.statusWord
  | .peak => s.peakWord
  | .exp => s.exp
  | .ecmd => s.ecmd

/-- R196, R60: a write of a special register: bit 0 of the value into `OV`, bits 30:0 into `PEAK`, all of it into `EXP`. -/
def State.writeSreg (s : State) : WritableSReg → Word → State
  | .status, v => s.setOv (v.getLsbD 0)
  | .peak, v => s.setPeak (v.setWidth 31)
  | .exp, v => s.setExp v

/-- R195: the special register that a number in an `MFS` names, if there is one. -/
def readableSreg (n : Half) : Option SReg :=
  match n.toNat with
  | 0 => some .status
  | 1 => some .peak
  | 2 => some .exp
  | 3 => some .ecmd
  | _ => none

/-- R196: the special register that a number in an `MTS` names, if there is one that can be written. -/
def writableSreg (n : Half) : Option WritableSReg :=
  match n.toNat with
  | 0 => some .status
  | 1 => some .peak
  | 2 => some .exp
  | _ => none

/-! ### The sample buffer (R34, R64, R66) -/

/-- The canonical form of `BUF`: indices rise strictly and lie below `BUF_WORDS`. -/
def Memory.wf : Memory → Bool
  | [] => true
  | (a, _) :: m => decide (a < bufWords) && m.all (fun c => decide (a < c.1)) && Memory.wf m

/-- The word written at an index since reset, if one was. -/
def Memory.lookup : Memory → Nat → Option Word
  | [], _ => none
  | (b, v) :: m, a => if a = b then some v else Memory.lookup m a

/-- Writing one word keeps the canonical form. What an unlisted index reads as is "nothing written", which no written word
equals, so a write never removes an entry (log 21). -/
def Memory.write : Memory → Nat → Word → Memory
  | [], a, v => [(a, v)]
  | (b, u) :: m, a, v =>
    if a < b then (a, v) :: (b, u) :: m
    else if a = b then (a, v) :: m
    else (b, u) :: Memory.write m a v

/-- Writing words at consecutive indices from `base`. -/
def Memory.writeRun : Memory → Nat → List Word → Memory
  | m, _, [] => m
  | m, base, v :: vs => Memory.writeRun (m.write base v) (base + 1) vs

/-- R11, R69: `BUF[a]`: the word written there latest, or, where nothing was written since reset, the free value of R40. -/
def State.bufWord (s : State) (a : Nat) : Word := (s.buf.lookup a).getD (Config.bufAtReset s.resets a)

/-- R11: `BUF[a] <- v`. -/
def State.setBufWord (s : State) (a : Nat) (v : Word) : State := { s with buf := s.buf.write a v }

/-- The words `BUF[base] .. BUF[base + len - 1]` of a run (R65). -/
def State.bufRun (s : State) (base len : Nat) : List Word := (List.range len).map fun w => s.bufWord (base + w)

/-- R74: a run replaced by the new one. -/
def State.setBufRun (s : State) (base : Nat) (vs : List Word) : State := { s with buf := s.buf.writeRun base vs }

/-! ### Addresses and the checks that can fault (R64, R65) -/

/-- R64: the effective address of `LDW` and `STW`, `(r[rs1] + s16(imm)) mod 2^32`. -/
def State.effectiveAddress (s : State) (rs1 : RegNum) (imm : Half) : Word := s.reg rs1 + sext16 imm

/-- R65: the two checks of a transform's run, in their order: an odd base, then a run that does not fit in `BUF`, the sum
not reduced modulo `2^32`. -/
def runFault (base : Word) (len : Nat) : Option Cause :=
  if base.getLsbD 0 then some .oddBase
  else if base.toNat + len > bufWords then some .bufferRange
  else none

/-! ### Taking the fault (R211, R212) -/

/-- R211: the value written to `CAUSE`. -/
def Cause.code : Cause → BitVec 4
  | .illegalCommand => 1
  | .bufferRange => 2
  | .oddBase => 3
  | .badSpecialRegister => 4

/-- R212: `raise Fault(c)` by the command word `w`: `ERR <- 1`, `CAUSE <- c`, `ECMD <- w`, and nothing else. The CORE runs no
handler; it stops accepting commands (R214). -/
def State.raiseFault (s : State) (c : Cause) (w : Word) : State := { s with err := true, cause := c.code, ecmd := w }

/-- `raise Fault(c)` by the command `i` itself: the word presented was `encode i`, since every field that a command does not
use is zero in its one word (R84, R85; log 6). -/
def faultBy (i : Instr) (c : Cause) (s : State) : Result := .next (s.raiseFault c (encode i))

/-! ### Writing results -/

/-- `r[rd] <- sat32(x)`, with `OV` as R13 says. -/
def State.setSat32 (s : State) (rd : RegNum) (x : Int) : State :=
  (s.setReg rd (sat32 x).val).orOv (sat32 x).ov

/-- `r[rd] <- sext_16(sat16(x))`, with `OV` as R13 says. -/
def State.setSat16 (s : State) (rd : RegNum) (x : Int) : State :=
  (s.setReg rd (sext16 (sat16 x).val)).orOv (sat16 x).ov

/-- The common shape of the transforms' rules (R147, R148, R170, R180): the base is `r[rs1]`, the run's two checks come
before anything is read or written (R65), and then the effect on the run at that base is performed. -/
def withRun (i : Instr) (rs1 : RegNum) (len : Nat) (effect : Nat → State → State) (s : State) : Result :=
  match runFault (s.reg rs1) len with
  | some c => faultBy i c s
  | none => .next (effect (s.reg rs1).toNat s)

end Sys2Proof.Machine
end

