-- ==== Sys2Proof/Machine/Arith.lean ====
section
/-! DEFINITION. The fixed-point arithmetic primitives (41_arith.md). All reads come before the write (R22). -/

namespace Sys2Proof.Machine

/-- R112: saturating 32-bit add. -/
def execAdd32 (rd rs1 rs2 : RegNum) (s : State) : Result :=
  .next (s.setSat32 rd (s32 (s.reg rs1) + s32 (s.reg rs2)))

/-- R113: saturating 32-bit subtract. -/
def execSub32 (rd rs1 rs2 : RegNum) (s : State) : Result :=
  .next (s.setSat32 rd (s32 (s.reg rs1) - s32 (s.reg rs2)))

/-- R114: saturating 16-bit add of the low halves, the result sign-extended. -/
def execAdd16 (rd rs1 rs2 : RegNum) (s : State) : Result :=
  .next (s.setSat16 rd (s16 (s.reg rs1) + s16 (s.reg rs2)))

/-- R115: saturating 16-bit subtract of the low halves, the result sign-extended. -/
def execSub16 (rd rs1 rs2 : RegNum) (s : State) : Result :=
  .next (s.setSat16 rd (s16 (s.reg rs1) - s16 (s.reg rs2)))

/-- R116, R111: the exact 16 by 16 product, neither doubled nor halved; it never touches `OV`. -/
def execMul16 (rd rs1 rs2 : RegNum) (s : State) : Result :=
  .next (s.setReg rd (BitVec.ofInt 32 (s16 (s.reg rs1) * s16 (s.reg rs2))))

/-- R117: the product added to `r[rd]`, saturating. -/
def execMac16 (rd rs1 rs2 : RegNum) (s : State) : Result :=
  .next (s.setSat32 rd (s32 (s.reg rd) + s16 (s.reg rs1) * s16 (s.reg rs2)))

/-- R118: the product subtracted from `r[rd]`, saturating. -/
def execMsu16 (rd rs1 rs2 : RegNum) (s : State) : Result :=
  .next (s.setSat32 rd (s32 (s.reg rd) - s16 (s.reg rs1) * s16 (s.reg rs2)))

/-- R119: add `0x8000` with saturation, then the high half, sign-extended. -/
def execRnd16 (rd rs1 : RegNum) (s : State) : Result :=
  let t := sat32 (s32 (s.reg rs1) + 0x8000)
  .next ((s.setReg rd (asr t.val 16)).orOv t.ov)

/-- R120: `fmul(s32(r[rs1]), s16(r[rs2]))`. -/
def execMulq (rd rs1 rs2 : RegNum) (s : State) : Result :=
  let t := fmul (s.reg rs1) ((s.reg rs2).setWidth 16)
  .next ((s.setReg rd t.val).orOv t.ov)

/-- R121: saturating left shift by bits 4:0 of `r[rs2]`. -/
def execShl32 (rd rs1 rs2 : RegNum) (s : State) : Result :=
  .next (s.setSat32 rd (s32 (s.reg rs1) * 2 ^ shiftCount (s.reg rs2)))

/-- R122: arithmetic right shift by bits 4:0 of `r[rs2]`, with no rounding and no flag. -/
def execShr32 (rd rs1 rs2 : RegNum) (s : State) : Result :=
  .next (s.setReg rd (asr (s.reg rs1) (shiftCount (s.reg rs2))))

end Sys2Proof.Machine
end

