-- ==== Sys2Proof/Machine/Rom.lean ====
section
/-! DEFINITION. The ROM tables of 11_rom_tables.md (R50 to R55) and the instance of the configuration that the model runs:
the default values of 00_scope.md R9. The ROMs are constants: no command and no transaction writes them (R36, R55). -/

namespace Sys2Proof.Machine

/-- A printed ROM entry as its pair (R53). -/
def coefOfWord (n : Nat) : Coef := ⟨BitVec.ofNat 16 (n / 65536), BitVec.ofNat 16 n⟩

/-- R53, section 3: `TW[0..383]`. Each number is one entry, `c` in its high 16 bits and `s` in its low 16, eight to a line as the spec prints them. -/
def twWords : List Nat :=
  [0x7FFF0000, 0x7FFE0192, 0x7FF60324, 0x7FEA04B6, 0x7FD90648, 0x7FC207D9, 0x7FA7096B, 0x7F870AFB] ++
  [0x7F620C8C, 0x7F380E1C, 0x7F0A0FAB, 0x7ED6113A, 0x7E9D12C8, 0x7E601455, 0x7E1E15E2, 0x7DD6176E] ++
  [0x7D8A18F9, 0x7D3A1A83, 0x7CE41C0C, 0x7C891D93, 0x7C2A1F1A, 0x7BC6209F, 0x7B5D2224, 0x7AEF23A7] ++
  [0x7A7D2528, 0x7A0626A8, 0x798A2827, 0x790A29A4, 0x78852B1F, 0x77FB2C99, 0x776C2E11, 0x76D92F87] ++
  [0x764230FC, 0x75A6326E, 0x750533DF, 0x7460354E, 0x73B636BA, 0x73083825, 0x7255398D, 0x719E3AF3] ++
  [0x70E33C57, 0x70233DB8, 0x6F5F3F17, 0x6E974074, 0x6DCA41CE, 0x6CF94326, 0x6C24447B, 0x6B4B45CD] ++
  [0x6A6E471D, 0x698C486A, 0x68A749B4, 0x67BD4AFB, 0x66D04C40, 0x65DE4D81, 0x64E94EC0, 0x63EF4FFB] ++
  [0x62F25134, 0x61F15269, 0x60EC539B, 0x5FE454CA, 0x5ED755F6, 0x5DC8571E, 0x5CB45843, 0x5B9D5964] ++
  [0x5A825A82, 0x59645B9D, 0x58435CB4, 0x571E5DC8, 0x55F65ED7, 0x54CA5FE4, 0x539B60EC, 0x526961F1] ++
  [0x513462F2, 0x4FFB63EF, 0x4EC064E9, 0x4D8165DE, 0x4C4066D0, 0x4AFB67BD, 0x49B468A7, 0x486A698C] ++
  [0x471D6A6E, 0x45CD6B4B, 0x447B6C24, 0x43266CF9, 0x41CE6DCA, 0x40746E97, 0x3F176F5F, 0x3DB87023] ++
  [0x3C5770E3, 0x3AF3719E, 0x398D7255, 0x38257308, 0x36BA73B6, 0x354E7460, 0x33DF7505, 0x326E75A6] ++
  [0x30FC7642, 0x2F8776D9, 0x2E11776C, 0x2C9977FB, 0x2B1F7885, 0x29A4790A, 0x2827798A, 0x26A87A06] ++
  [0x25287A7D, 0x23A77AEF, 0x22247B5D, 0x209F7BC6, 0x1F1A7C2A, 0x1D937C89, 0x1C0C7CE4, 0x1A837D3A] ++
  [0x18F97D8A, 0x176E7DD6, 0x15E27E1E, 0x14557E60, 0x12C87E9D, 0x113A7ED6, 0x0FAB7F0A, 0x0E1C7F38] ++
  [0x0C8C7F62, 0x0AFB7F87, 0x096B7FA7, 0x07D97FC2, 0x06487FD9, 0x04B67FEA, 0x03247FF6, 0x01927FFE] ++
  [0x00007FFF, 0xFE6E7FFE, 0xFCDC7FF6, 0xFB4A7FEA, 0xF9B87FD9, 0xF8277FC2, 0xF6957FA7, 0xF5057F87] ++
  [0xF3747F62, 0xF1E47F38, 0xF0557F0A, 0xEEC67ED6, 0xED387E9D, 0xEBAB7E60, 0xEA1E7E1E, 0xE8927DD6] ++
  [0xE7077D8A, 0xE57D7D3A, 0xE3F47CE4, 0xE26D7C89, 0xE0E67C2A, 0xDF617BC6, 0xDDDC7B5D, 0xDC597AEF] ++
  [0xDAD87A7D, 0xD9587A06, 0xD7D9798A, 0xD65C790A, 0xD4E17885, 0xD36777FB, 0xD1EF776C, 0xD07976D9] ++
  [0xCF047642, 0xCD9275A6, 0xCC217505, 0xCAB27460, 0xC94673B6, 0xC7DB7308, 0xC6737255, 0xC50D719E] ++
  [0xC3A970E3, 0xC2487023, 0xC0E96F5F, 0xBF8C6E97, 0xBE326DCA, 0xBCDA6CF9, 0xBB856C24, 0xBA336B4B] ++
  [0xB8E36A6E, 0xB796698C, 0xB64C68A7, 0xB50567BD, 0xB3C066D0, 0xB27F65DE, 0xB14064E9, 0xB00563EF] ++
  [0xAECC62F2, 0xAD9761F1, 0xAC6560EC, 0xAB365FE4, 0xAA0A5ED7, 0xA8E25DC8, 0xA7BD5CB4, 0xA69C5B9D] ++
  [0xA57E5A82, 0xA4635964, 0xA34C5843, 0xA238571E, 0xA12955F6, 0xA01C54CA, 0x9F14539B, 0x9E0F5269] ++
  [0x9D0E5134, 0x9C114FFB, 0x9B174EC0, 0x9A224D81, 0x99304C40, 0x98434AFB, 0x975949B4, 0x9674486A] ++
  [0x9592471D, 0x94B545CD, 0x93DC447B, 0x93074326, 0x923641CE, 0x91694074, 0x90A13F17, 0x8FDD3DB8] ++
  [0x8F1D3C57, 0x8E623AF3, 0x8DAB398D, 0x8CF83825, 0x8C4A36BA, 0x8BA0354E, 0x8AFB33DF, 0x8A5A326E] ++
  [0x89BE30FC, 0x89272F87, 0x88942E11, 0x88052C99, 0x877B2B1F, 0x86F629A4, 0x86762827, 0x85FA26A8] ++
  [0x85832528, 0x851123A7, 0x84A32224, 0x843A209F, 0x83D61F1A, 0x83771D93, 0x831C1C0C, 0x82C61A83] ++
  [0x827618F9, 0x822A176E, 0x81E215E2, 0x81A01455, 0x816312C8, 0x812A113A, 0x80F60FAB, 0x80C80E1C] ++
  [0x809E0C8C, 0x80790AFB, 0x8059096B, 0x803E07D9, 0x80270648, 0x801604B6, 0x800A0324, 0x80020192] ++
  [0x80000000, 0x8002FE6E, 0x800AFCDC, 0x8016FB4A, 0x8027F9B8, 0x803EF827, 0x8059F695, 0x8079F505] ++
  [0x809EF374, 0x80C8F1E4, 0x80F6F055, 0x812AEEC6, 0x8163ED38, 0x81A0EBAB, 0x81E2EA1E, 0x822AE892] ++
  [0x8276E707, 0x82C6E57D, 0x831CE3F4, 0x8377E26D, 0x83D6E0E6, 0x843ADF61, 0x84A3DDDC, 0x8511DC59] ++
  [0x8583DAD8, 0x85FAD958, 0x8676D7D9, 0x86F6D65C, 0x877BD4E1, 0x8805D367, 0x8894D1EF, 0x8927D079] ++
  [0x89BECF04, 0x8A5ACD92, 0x8AFBCC21, 0x8BA0CAB2, 0x8C4AC946, 0x8CF8C7DB, 0x8DABC673, 0x8E62C50D] ++
  [0x8F1DC3A9, 0x8FDDC248, 0x90A1C0E9, 0x9169BF8C, 0x9236BE32, 0x9307BCDA, 0x93DCBB85, 0x94B5BA33] ++
  [0x9592B8E3, 0x9674B796, 0x9759B64C, 0x9843B505, 0x9930B3C0, 0x9A22B27F, 0x9B17B140, 0x9C11B005] ++
  [0x9D0EAECC, 0x9E0FAD97, 0x9F14AC65, 0xA01CAB36, 0xA129AA0A, 0xA238A8E2, 0xA34CA7BD, 0xA463A69C] ++
  [0xA57EA57E, 0xA69CA463, 0xA7BDA34C, 0xA8E2A238, 0xAA0AA129, 0xAB36A01C, 0xAC659F14, 0xAD979E0F] ++
  [0xAECC9D0E, 0xB0059C11, 0xB1409B17, 0xB27F9A22, 0xB3C09930, 0xB5059843, 0xB64C9759, 0xB7969674] ++
  [0xB8E39592, 0xBA3394B5, 0xBB8593DC, 0xBCDA9307, 0xBE329236, 0xBF8C9169, 0xC0E990A1, 0xC2488FDD] ++
  [0xC3A98F1D, 0xC50D8E62, 0xC6738DAB, 0xC7DB8CF8, 0xC9468C4A, 0xCAB28BA0, 0xCC218AFB, 0xCD928A5A] ++
  [0xCF0489BE, 0xD0798927, 0xD1EF8894, 0xD3678805, 0xD4E1877B, 0xD65C86F6, 0xD7D98676, 0xD95885FA] ++
  [0xDAD88583, 0xDC598511, 0xDDDC84A3, 0xDF61843A, 0xE0E683D6, 0xE26D8377, 0xE3F4831C, 0xE57D82C6] ++
  [0xE7078276, 0xE892822A, 0xEA1E81E2, 0xEBAB81A0, 0xED388163, 0xEEC6812A, 0xF05580F6, 0xF1E480C8] ++
  [0xF374809E, 0xF5058079, 0xF6958059, 0xF827803E, 0xF9B88027, 0xFB4A8016, 0xFCDC800A, 0xFE6E8002]

/-- R53, section 4: `ROT[0..511]`. Each number is one entry, `c` in its high 16 bits and `s` in its low 16, eight to a line as the spec prints them. -/
def rotWords : List Nat :=
  [0x7FFF0032, 0x7FFD01C4, 0x7FF50356, 0x7FE804E8, 0x7FD6067A, 0x7FBF080C, 0x7FA3099D, 0x7F830B2D] ++
  [0x7F5D0CBE, 0x7F330E4E, 0x7F030FDD, 0x7ECF116C, 0x7E9612FA, 0x7E581487, 0x7E151614, 0x7DCD179F] ++
  [0x7D81192A, 0x7D2F1AB4, 0x7CD91C3D, 0x7C7E1DC4, 0x7C1E1F4B, 0x7BB920D0, 0x7B502254, 0x7AE123D7] ++
  [0x7A6E2558, 0x79F726D8, 0x797A2856, 0x78F929D3, 0x78742B4F, 0x77E92CC8, 0x775A2E40, 0x76C72FB6] ++
  [0x762E312A, 0x7592329D, 0x74F0340D, 0x744B357B, 0x73A036E8, 0x72F23852, 0x723F39BA, 0x71873B20] ++
  [0x70CB3C83, 0x700B3DE4, 0x6F463F43, 0x6E7D409F, 0x6DB041F9, 0x6CDF4351, 0x6C0944A5, 0x6B3045F7] ++
  [0x6A524747, 0x69704893, 0x688A49DD, 0x67A04B24, 0x66B24C68, 0x65C04DA9, 0x64CA4EE8, 0x63D05023] ++
  [0x62D2515B, 0x61D15290, 0x60CB53C1, 0x5FC254F0, 0x5EB6561B, 0x5DA55743, 0x5C915867, 0x5B7A5988] ++
  [0x5A5F5AA6, 0x59405BC0, 0x581E5CD7, 0x56F95DEA, 0x55D05EF9, 0x54A46005, 0x5375610D, 0x52436211] ++
  [0x510D6312, 0x4FD4640F, 0x4E986507, 0x4D5965FC, 0x4C1766ED, 0x4AD367DA, 0x498B68C4, 0x484069A9] ++
  [0x46F36A89, 0x45A36B66, 0x44506C3F, 0x42FB6D14, 0x41A36DE4, 0x40486EB0, 0x3EEC6F78, 0x3D8C703B] ++
  [0x3C2A70FA, 0x3AC671B5, 0x3960726C, 0x37F7731E, 0x368D73CB, 0x35207475, 0x33B17519, 0x324075B9] ++
  [0x30CD7655, 0x2F5976EC, 0x2DE2777E, 0x2C6A780C, 0x2AF07895, 0x2974791A, 0x27F7799A, 0x26787A15] ++
  [0x24F87A8C, 0x23767AFD, 0x21F37B6A, 0x206F7BD3, 0x1EE97C36, 0x1D627C95, 0x1BDA7CEF, 0x1A517D44] ++
  [0x18C77D94, 0x173C7DE0, 0x15B17E26, 0x14247E68, 0x12967EA5, 0x11087EDD, 0x0F797F10, 0x0DEA7F3E] ++
  [0x0C5A7F67, 0x0AC97F8B, 0x09387FAB, 0x07A77FC5, 0x06167FDB, 0x04847FEC, 0x02F27FF7, 0x01607FFE] ++
  [0xFFCE7FFF, 0xFE3C7FFD, 0xFCAA7FF5, 0xFB187FE8, 0xF9867FD6, 0xF7F47FBF, 0xF6637FA3, 0xF4D37F83] ++
  [0xF3427F5D, 0xF1B27F33, 0xF0237F03, 0xEE947ECF, 0xED067E96, 0xEB797E58, 0xE9EC7E15, 0xE8617DCD] ++
  [0xE6D67D81, 0xE54C7D2F, 0xE3C37CD9, 0xE23C7C7E, 0xE0B57C1E, 0xDF307BB9, 0xDDAC7B50, 0xDC297AE1] ++
  [0xDAA87A6E, 0xD92879F7, 0xD7AA797A, 0xD62D78F9, 0xD4B17874, 0xD33877E9, 0xD1C0775A, 0xD04A76C7] ++
  [0xCED6762E, 0xCD637592, 0xCBF374F0, 0xCA85744B, 0xC91873A0, 0xC7AE72F2, 0xC646723F, 0xC4E07187] ++
  [0xC37D70CB, 0xC21C700B, 0xC0BD6F46, 0xBF616E7D, 0xBE076DB0, 0xBCAF6CDF, 0xBB5B6C09, 0xBA096B30] ++
  [0xB8B96A52, 0xB76D6970, 0xB623688A, 0xB4DC67A0, 0xB39866B2, 0xB25765C0, 0xB11864CA, 0xAFDD63D0] ++
  [0xAEA562D2, 0xAD7061D1, 0xAC3F60CB, 0xAB105FC2, 0xA9E55EB6, 0xA8BD5DA5, 0xA7995C91, 0xA6785B7A] ++
  [0xA55A5A5F, 0xA4405940, 0xA329581E, 0xA21656F9, 0xA10755D0, 0x9FFB54A4, 0x9EF35375, 0x9DEF5243] ++
  [0x9CEE510D, 0x9BF14FD4, 0x9AF94E98, 0x9A044D59, 0x99134C17, 0x98264AD3, 0x973C498B, 0x96574840] ++
  [0x957746F3, 0x949A45A3, 0x93C14450, 0x92EC42FB, 0x921C41A3, 0x91504048, 0x90883EEC, 0x8FC53D8C] ++
  [0x8F063C2A, 0x8E4B3AC6, 0x8D943960, 0x8CE237F7, 0x8C35368D, 0x8B8B3520, 0x8AE733B1, 0x8A473240] ++
  [0x89AB30CD, 0x89142F59, 0x88822DE2, 0x87F42C6A, 0x876B2AF0, 0x86E62974, 0x866627F7, 0x85EB2678] ++
  [0x857424F8, 0x85032376, 0x849621F3, 0x842D206F, 0x83CA1EE9, 0x836B1D62, 0x83111BDA, 0x82BC1A51] ++
  [0x826C18C7, 0x8220173C, 0x81DA15B1, 0x81981424, 0x815B1296, 0x81231108, 0x80F00F79, 0x80C20DEA] ++
  [0x80990C5A, 0x80750AC9, 0x80550938, 0x803B07A7, 0x80250616, 0x80140484, 0x800902F2, 0x80020160] ++
  [0x8000FFCE, 0x8003FE3C, 0x800BFCAA, 0x8018FB18, 0x802AF986, 0x8041F7F4, 0x805DF663, 0x807DF4D3] ++
  [0x80A3F342, 0x80CDF1B2, 0x80FDF023, 0x8131EE94, 0x816AED06, 0x81A8EB79, 0x81EBE9EC, 0x8233E861] ++
  [0x827FE6D6, 0x82D1E54C, 0x8327E3C3, 0x8382E23C, 0x83E2E0B5, 0x8447DF30, 0x84B0DDAC, 0x851FDC29] ++
  [0x8592DAA8, 0x8609D928, 0x8686D7AA, 0x8707D62D, 0x878CD4B1, 0x8817D338, 0x88A6D1C0, 0x8939D04A] ++
  [0x89D2CED6, 0x8A6ECD63, 0x8B10CBF3, 0x8BB5CA85, 0x8C60C918, 0x8D0EC7AE, 0x8DC1C646, 0x8E79C4E0] ++
  [0x8F35C37D, 0x8FF5C21C, 0x90BAC0BD, 0x9183BF61, 0x9250BE07, 0x9321BCAF, 0x93F7BB5B, 0x94D0BA09] ++
  [0x95AEB8B9, 0x9690B76D, 0x9776B623, 0x9860B4DC, 0x994EB398, 0x9A40B257, 0x9B36B118, 0x9C30AFDD] ++
  [0x9D2EAEA5, 0x9E2FAD70, 0x9F35AC3F, 0xA03EAB10, 0xA14AA9E5, 0xA25BA8BD, 0xA36FA799, 0xA486A678] ++
  [0xA5A1A55A, 0xA6C0A440, 0xA7E2A329, 0xA907A216, 0xAA30A107, 0xAB5C9FFB, 0xAC8B9EF3, 0xADBD9DEF] ++
  [0xAEF39CEE, 0xB02C9BF1, 0xB1689AF9, 0xB2A79A04, 0xB3E99913, 0xB52D9826, 0xB675973C, 0xB7C09657] ++
  [0xB90D9577, 0xBA5D949A, 0xBBB093C1, 0xBD0592EC, 0xBE5D921C, 0xBFB89150, 0xC1149088, 0xC2748FC5] ++
  [0xC3D68F06, 0xC53A8E4B, 0xC6A08D94, 0xC8098CE2, 0xC9738C35, 0xCAE08B8B, 0xCC4F8AE7, 0xCDC08A47] ++
  [0xCF3389AB, 0xD0A78914, 0xD21E8882, 0xD39687F4, 0xD510876B, 0xD68C86E6, 0xD8098666, 0xD98885EB] ++
  [0xDB088574, 0xDC8A8503, 0xDE0D8496, 0xDF91842D, 0xE11783CA, 0xE29E836B, 0xE4268311, 0xE5AF82BC] ++
  [0xE739826C, 0xE8C48220, 0xEA4F81DA, 0xEBDC8198, 0xED6A815B, 0xEEF88123, 0xF08780F0, 0xF21680C2] ++
  [0xF3A68099, 0xF5378075, 0xF6C88055, 0xF859803B, 0xF9EA8025, 0xFB7C8014, 0xFD0E8009, 0xFEA08002] ++
  [0x00328000, 0x01C48003, 0x0356800B, 0x04E88018, 0x067A802A, 0x080C8041, 0x099D805D, 0x0B2D807D] ++
  [0x0CBE80A3, 0x0E4E80CD, 0x0FDD80FD, 0x116C8131, 0x12FA816A, 0x148781A8, 0x161481EB, 0x179F8233] ++
  [0x192A827F, 0x1AB482D1, 0x1C3D8327, 0x1DC48382, 0x1F4B83E2, 0x20D08447, 0x225484B0, 0x23D7851F] ++
  [0x25588592, 0x26D88609, 0x28568686, 0x29D38707, 0x2B4F878C, 0x2CC88817, 0x2E4088A6, 0x2FB68939] ++
  [0x312A89D2, 0x329D8A6E, 0x340D8B10, 0x357B8BB5, 0x36E88C60, 0x38528D0E, 0x39BA8DC1, 0x3B208E79] ++
  [0x3C838F35, 0x3DE48FF5, 0x3F4390BA, 0x409F9183, 0x41F99250, 0x43519321, 0x44A593F7, 0x45F794D0] ++
  [0x474795AE, 0x48939690, 0x49DD9776, 0x4B249860, 0x4C68994E, 0x4DA99A40, 0x4EE89B36, 0x50239C30] ++
  [0x515B9D2E, 0x52909E2F, 0x53C19F35, 0x54F0A03E, 0x561BA14A, 0x5743A25B, 0x5867A36F, 0x5988A486] ++
  [0x5AA6A5A1, 0x5BC0A6C0, 0x5CD7A7E2, 0x5DEAA907, 0x5EF9AA30, 0x6005AB5C, 0x610DAC8B, 0x6211ADBD] ++
  [0x6312AEF3, 0x640FB02C, 0x6507B168, 0x65FCB2A7, 0x66EDB3E9, 0x67DAB52D, 0x68C4B675, 0x69A9B7C0] ++
  [0x6A89B90D, 0x6B66BA5D, 0x6C3FBBB0, 0x6D14BD05, 0x6DE4BE5D, 0x6EB0BFB8, 0x6F78C114, 0x703BC274] ++
  [0x70FAC3D6, 0x71B5C53A, 0x726CC6A0, 0x731EC809, 0x73CBC973, 0x7475CAE0, 0x7519CC4F, 0x75B9CDC0] ++
  [0x7655CF33, 0x76ECD0A7, 0x777ED21E, 0x780CD396, 0x7895D510, 0x791AD68C, 0x799AD809, 0x7A15D988] ++
  [0x7A8CDB08, 0x7AFDDC8A, 0x7B6ADE0D, 0x7BD3DF91, 0x7C36E117, 0x7C95E29E, 0x7CEFE426, 0x7D44E5AF] ++
  [0x7D94E739, 0x7DE0E8C4, 0x7E26EA4F, 0x7E68EBDC, 0x7EA5ED6A, 0x7EDDEEF8, 0x7F10F087, 0x7F3EF216] ++
  [0x7F67F3A6, 0x7F8BF537, 0x7FABF6C8, 0x7FC5F859, 0x7FDBF9EA, 0x7FECFB7C, 0x7FF7FD0E, 0x7FFEFEA0]

/-- R9: the default configuration, the one the model runs (log 9). -/
def config : Config where
  shiftShort := 2
  schedLong := #v[2, 2, 2, 2]
  thrShort := 0x10000000
  headShort := 3
  headMix := 4
  mixShiftFloor := -16
  headRot := 1
  tw := twWords.map coefOfWord
  rot := rotWords.map coefOfWord

/-- A ROM's entry (R51: no command forms an index outside the table; log 10). -/
def romEntry (rom : List Coef) (i : Nat) : Coef := rom.getD i ⟨0, 0⟩

end Sys2Proof.Machine
end

