-- ==== Sys2Proof/Machine/Complex.lean ====
section
/-! DEFINITION. Complex points of a run (10_state.md R35) and their arithmetic (00_scope.md R17). -/

namespace Sys2Proof.Machine

/-- R17, R35: a complex value, a pair of signed 32-bit words. -/
structure Cplx where
  re : Word
  im : Word
deriving DecidableEq, Repr

/-- Point `i` of a list of points. Every index formed lies inside the list (R142, R172). -/
def point (zs : List Cplx) (i : Nat) : Cplx := zs.getD i ⟨0, 0⟩

/-- R17: `cadd`. -/
def cadd (a b : Cplx) : Sat Cplx :=
  let re := sat32 (s32 a.re + s32 b.re)
  let im := sat32 (s32 a.im + s32 b.im)
  ⟨⟨re.val, im.val⟩, re.ov || im.ov⟩

/-- R17: `csub`. -/
def csub (a b : Cplx) : Sat Cplx :=
  let re := sat32 (s32 a.re - s32 b.re)
  let im := sat32 (s32 a.im - s32 b.im)
  ⟨⟨re.val, im.val⟩, re.ov || im.ov⟩

/-- R143: `a - j*b`, as `( sat32(a.re + b.im), sat32(a.im - b.re) )`. -/
def csubJ (a b : Cplx) : Sat Cplx :=
  let re := sat32 (s32 a.re + s32 b.im)
  let im := sat32 (s32 a.im - s32 b.re)
  ⟨⟨re.val, im.val⟩, re.ov || im.ov⟩

/-- R143: `a + j*b`, as `( sat32(a.re - b.im), sat32(a.im + b.re) )`. -/
def caddJ (a b : Cplx) : Sat Cplx :=
  let re := sat32 (s32 a.re - s32 b.im)
  let im := sat32 (s32 a.im + s32 b.re)
  ⟨⟨re.val, im.val⟩, re.ov || im.ov⟩

/-- R17: `cmul_neg(y, (c, s))`, the product by `c - j*s`. -/
def cmulNeg (y : Cplx) (k : Coef) : Sat Cplx :=
  let rc := fmul y.re k.c
  let is := fmul y.im k.s
  let ic := fmul y.im k.c
  let rs := fmul y.re k.s
  let re := sat32 (s32 rc.val + s32 is.val)
  let im := sat32 (s32 ic.val - s32 rs.val)
  ⟨⟨re.val, im.val⟩, rc.ov || is.ov || ic.ov || rs.ov || re.ov || im.ov⟩

/-- R17: `cmul_pos(y, (c, s))`, the product by `c + j*s`. -/
def cmulPos (y : Cplx) (k : Coef) : Sat Cplx :=
  let rc := fmul y.re k.c
  let is := fmul y.im k.s
  let rs := fmul y.re k.s
  let ic := fmul y.im k.c
  let re := sat32 (s32 rc.val - s32 is.val)
  let im := sat32 (s32 rs.val + s32 ic.val)
  ⟨⟨re.val, im.val⟩, rc.ov || is.ov || rs.ov || ic.ov || re.ov || im.ov⟩

/-- R144: `cshift(y, sh)`, both parts shifted right with no rounding. -/
def cshift (y : Cplx) (sh : Nat) : Cplx := ⟨asr y.re sh, asr y.im sh⟩

/-- R16 on both parts: the normalisation of a point by a signed amount. -/
def cshs (y : Cplx) (r : Int) : Sat Cplx :=
  let re := shs y.re r
  let im := shs y.im r
  ⟨⟨re.val, im.val⟩, re.ov || im.ov⟩

/-- R35: the points `Z[0] .. Z[n-1]` at base `base`, the real part at the even word. -/
def State.points (s : State) (base n : Nat) : List Cplx :=
  (List.range n).map fun i => ⟨s.bufWord (base + 2 * i), s.bufWord (base + 2 * i + 1)⟩

/-- R35: the words of a list of points. -/
def pointWords (zs : List Cplx) : List Word := zs.flatMap fun z => [z.re, z.im]

/-- R35, R74: the run of points at `base` replaced. -/
def State.setPoints (s : State) (base : Nat) (zs : List Cplx) : State := s.setBufRun base (pointWords zs)

/-- R146: the bitwise OR of `mag` over every word of the points. -/
def peakOf (zs : List Cplx) : BitVec 31 := (pointWords zs).foldl (fun p v => p ||| mag v) 0

end Sys2Proof.Machine
end

