-- ==== Sys2Proof/Machine/Radix4.lean ====
section
/-! DEFINITION. The radix-4 engine and its two commands (42_radix4.md). The engine is a function from the old points to the
new ones (20_memory.md R74); no two butterflies of a level share a point, so each output is given by the butterfly that
writes it (R142; log 13). -/

namespace Sys2Proof.Machine

/-- The four outputs of a butterfly. -/
structure Quad where
  y0 : Cplx
  y1 : Cplx
  y2 : Cplx
  y3 : Cplx
deriving DecidableEq, Repr

/-- Output `k` of a butterfly, `0 <= k <= 3`. -/
def quadOut (q : Quad) : Nat → Cplx
  | 0 => q.y0
  | 1 => q.y1
  | 2 => q.y2
  | _ => q.y3

/-- R143, the add/subtract part: the 4-point transform of `a, b, c, d`. -/
def butterflySums (a b c d : Cplx) : Sat Quad :=
  let t0 := cadd a c
  let t1 := csub a c
  let t2 := cadd b d
  let t3 := csub b d
  let y0 := cadd t0.val t2.val
  let y2 := csub t0.val t2.val
  let y1 := csubJ t1.val t3.val
  let y3 := caddJ t1.val t3.val
  ⟨⟨y0.val, y1.val, y2.val, y3.val⟩, t0.ov || t1.ov || t2.ov || t3.ov || y0.ov || y1.ov || y2.ov || y3.ov⟩

/-- R143, R51: one butterfly of a level with groups of `n1` points at tap `j`. Tap 0 bypasses the multiplier. -/
def butterfly (cfg : Config) (n1 j : Nat) (a b c d : Cplx) : Sat Quad :=
  let q := butterflySums a b c d
  if j = 0 then q
  else
    let e := 512 / n1 * j
    let y1 := cmulNeg q.val.y1 (romEntry cfg.tw e)
    let y2 := cmulNeg q.val.y2 (romEntry cfg.tw (2 * e))
    let y3 := cmulNeg q.val.y3 (romEntry cfg.tw (3 * e))
    ⟨⟨q.val.y0, y1.val, y2.val, y3.val⟩, q.ov || y1.ov || y2.ov || y3.ov⟩

/-- R142: the point that a level with groups of `n1` points stores at place `p`. `p` is `g + j + k*n2` for one group start
`g`, one tap `j` and one output `k`; the butterfly of `(g, j)` reads `g + j`, `g + j + n2`, `g + j + 2*n2`, `g + j + 3*n2`
and its output `k` goes to `p` after the level shift `sh` (R144). -/
def levelPoint (cfg : Config) (n1 sh : Nat) (zs : List Cplx) (p : Nat) : Sat Cplx :=
  let n2 := n1 / 4
  let i0 := p / n1 * n1 + p % n1 % n2
  let q := butterfly cfg n1 (p % n1 % n2) (point zs i0) (point zs (i0 + n2)) (point zs (i0 + 2 * n2)) (point zs (i0 + 3 * n2))
  ⟨cshift (quadOut q.val (p % n1 / n2)) sh, q.ov⟩

/-- R142: one level over all the points. -/
def level (cfg : Config) (n1 sh : Nat) (zs : List Cplx) : Sat (List Cplx) :=
  Sat.collect ((List.range zs.length).map (levelPoint cfg n1 sh zs))

/-- R141: the levels of a shift list in order, the first with groups of `n1` points and each next one with a quarter. -/
def levels (cfg : Config) : Nat → List Nat → List Cplx → Sat (List Cplx)
  | _, [], zs => ⟨zs, false⟩
  | n1, sh :: sched, zs =>
    let l := level cfg n1 sh zs
    let r := levels cfg (n1 / 4) sched l.val
    ⟨r.val, l.ov || r.ov⟩

/-- R141, R145: `fft4` on all the points of a run: as many levels as the shift list is long (`log4(N)` for both users), the
last of them the "last mile" pass. -/
def fft4 (cfg : Config) (sched : List Nat) (zs : List Cplx) : Sat (List Cplx) := levels cfg zs.length sched zs

/-- R147: the shift list of the long engine. -/
def longSchedule (cfg : Config) : List Nat := cfg.schedLong.toList

/-- R148: the shift list of the short engine. -/
def shortSchedule (cfg : Config) : List Nat := List.replicate 3 cfg.shiftShort

/-- R148: the short pre-shift `e0`. With the default `HEAD_SHORT = 3` and `THR_SHORT = 2^28` the difference is 1, 2 or 3
(log 11). -/
def shortPreShift (cfg : Config) (peak : Word) : Nat :=
  if peak.toNat < cfg.thrShort then 0 else cfg.headShort - clrsb peak

/-- R147: what `FFT4L` does to the run at `base`. -/
def fft4lEffect (cfg : Config) (base : Nat) (s : State) : State :=
  let out := fft4 cfg (longSchedule cfg) (s.points base nLong)
  (((s.setPoints base out.val).orOv out.ov).setPeak (peakOf out.val)).setExp (BitVec.ofNat 32 (longSchedule cfg).sum)

/-- R148: what `FFT4S` does to the run at `base`. -/
def fft4sEffect (cfg : Config) (base : Nat) (s : State) : State :=
  let e0 := shortPreShift cfg s.peakWord
  let out := fft4 cfg (shortSchedule cfg) ((s.points base nShort).map fun z => cshift z e0)
  (((s.setPoints base out.val).orOv out.ov).setPeak (peakOf out.val)).setExp
    (BitVec.ofNat 32 (e0 + (shortSchedule cfg).sum))

/-- R147: `FFT4L rs1`, a run of 512 words. -/
def execFft4l (rs1 : RegNum) (s : State) : Result := withRun (.fft4l rs1) rs1 (2 * nLong) (fft4lEffect config) s

/-- R148: `FFT4S rs1`, a run of 128 words. -/
def execFft4s (rs1 : RegNum) (s : State) : Result := withRun (.fft4s rs1) rs1 (2 * nShort) (fft4sEffect config) s

end Sys2Proof.Machine
end

