-- ==== Sys2Proof/Machine/MixedRadix.lean ====
section
/-! DEFINITION. The mixed-radix composition (43_mixed_radix.md). -/

namespace Sys2Proof.Machine

/-- R171: the normalisation shift `max(HEAD_MIX - clrsb_32(P), MIX_SHIFT_FLOOR)`, positive to the right. -/
def mixShift (cfg : Config) (peak : Word) : Int := max ((cfg.headMix : Int) - clrsb peak) cfg.mixShiftFloor

/-- R172: the two points that iteration `n` of the radix-2 stage stores, `Z[n]` and `Z[n+256]`; `n = 0` bypasses the
multiplier. -/
def radix2Pair (cfg : Config) (r : Int) (zs : List Cplx) (n : Nat) : Sat (Cplx × Cplx) :=
  let a := cshs (point zs n) r
  let b := cshs (point zs (n + nLong)) r
  let sum := cadd a.val b.val
  let d := csub a.val b.val
  let v := if n = 0 then ⟨d.val, false⟩ else cmulNeg d.val (romEntry cfg.tw n)
  ⟨(sum.val, v.val), a.ov || b.ov || sum.ov || d.ov || v.ov⟩

/-- R172: the radix-2 stage, its 256 iterations independent: the low half of the new run and the high half. -/
def radix2 (cfg : Config) (r : Int) (zs : List Cplx) : Sat (List Cplx × List Cplx) :=
  let pairs := Sat.collect ((List.range nLong).map (radix2Pair cfg r zs))
  ⟨(pairs.val.map Prod.fst, pairs.val.map Prod.snd), pairs.ov⟩

/-- R174: the perfect shuffle: place `2p` from the low half, place `2p + 1` from the high half. -/
def interleave (low high : List Cplx) : List Cplx :=
  (List.range nLong).flatMap fun p => [point low p, point high p]

/-- R170: what `MIXFFT` computes from the points and the normalisation shift: the new run and the peak of both halves. -/
def mixTransform (cfg : Config) (r : Int) (zs : List Cplx) : Sat (List Cplx × BitVec 31) :=
  let h := radix2 cfg r zs
  let lo := fft4 cfg (longSchedule cfg) h.val.1
  let hi := fft4 cfg (longSchedule cfg) h.val.2
  ⟨(interleave lo.val hi.val, peakOf lo.val ||| peakOf hi.val), h.ov || lo.ov || hi.ov⟩

/-- R170, R175: what `MIXFFT` does to the run at `base`. -/
def mixfftEffect (cfg : Config) (base : Nat) (s : State) : State :=
  let r := mixShift cfg s.peakWord
  let out := mixTransform cfg r (s.points base nMix)
  (((s.setPoints base out.val.1).orOv out.ov).setPeak out.val.2).setExp
    (BitVec.ofInt 32 (r + ((longSchedule cfg).sum : Nat)))

/-- R170: `MIXFFT rs1`, a run of 1024 words. -/
def execMixfft (rs1 : RegNum) (s : State) : Result := withRun (.mixfft rs1) rs1 (2 * nMix) (mixfftEffect config) s

end Sys2Proof.Machine
end

