-- ==== Sys2Proof/Machine/MoveSystem.lean ====
section
/-! DEFINITION. The move, buffer access and special register commands (45_move_system.md). -/

namespace Sys2Proof.Machine

/-- R190: nothing changes. -/
def execNop (s : State) : Result := .next s

/-- R191: `r[rd] <- sext_16(imm)`. -/
def execLi (rd : RegNum) (imm : Half) (s : State) : Result := .next (s.setReg rd (sext16 imm))

/-- R192: bits 31:16 of `r[rd]` replaced by `imm`, bits 15:0 kept. -/
def execLih (rd : RegNum) (imm : Half) (s : State) : Result :=
  .next (s.setReg rd (imm ++ (s.reg rd).setWidth 16))

/-- R193: `r[rd] <- r[rs1]`. -/
def execMov (rd rs1 : RegNum) (s : State) : Result := .next (s.setReg rd (s.reg rs1))

/-- R195: `r[rd] <- SREG[imm]`, or Fault(4) for a number above 3. -/
def execMfs (rd : RegNum) (imm : Half) (s : State) : Result :=
  match readableSreg imm with
  | none => faultBy (.mfs rd imm) .badSpecialRegister s
  | some n => .next (s.setReg rd (s.readSreg n))

/-- R196: `SREG[imm] <- r[rs1]`, or Fault(4) for a number above 2. -/
def execMts (imm : Half) (rs1 : RegNum) (s : State) : Result :=
  match writableSreg imm with
  | none => faultBy (.mts imm rs1) .badSpecialRegister s
  | some n => .next (s.writeSreg n (s.reg rs1))

/-- R197: `OV <- 0`. -/
def execClrov (s : State) : Result := .next (s.setOv false)

/-- R198: `r[rd] <- BUF[EA]`, or Fault(2) for an index outside `BUF`. -/
def execLdw (rd : RegNum) (imm : Half) (rs1 : RegNum) (s : State) : Result :=
  let ea := (s.effectiveAddress rs1 imm).toNat
  if ea < bufWords then .next (s.setReg rd (s.bufWord ea)) else faultBy (.ldw rd imm rs1) .bufferRange s

/-- R199: `BUF[EA] <- r[rs2]`, or Fault(2) for an index outside `BUF`. -/
def execStw (rs2 : RegNum) (imm : Half) (rs1 : RegNum) (s : State) : Result :=
  let ea := (s.effectiveAddress rs1 imm).toNat
  if ea < bufWords then .next (s.setBufWord ea (s.reg rs2)) else faultBy (.stw rs2 imm rs1) .bufferRange s

end Sys2Proof.Machine
end

