-- ==== Sys2Proof/Machine/Normalize.lean ====
section
/-! DEFINITION. The leading-bit counters (40_normalize.md). -/

namespace Sys2Proof.Machine

/-- R101: `r[rd] <- clrsb_32(s32(r[rs1]))`. -/
def execNorm32 (rd rs1 : RegNum) (s : State) : Result :=
  .next (s.setReg rd (BitVec.ofNat 32 (clrsb (s.reg rs1))))

/-- R102: `r[rd] <- clrsb_16(s16(r[rs1]))`; bits 31:16 of the source are ignored. -/
def execNorm16 (rd rs1 : RegNum) (s : State) : Result :=
  .next (s.setReg rd (BitVec.ofNat 32 (clrsb ((s.reg rs1).setWidth 16))))

end Sys2Proof.Machine
end

