-- ==== Sys2Proof/Machine/PostRot.lean ====
section
/-! DEFINITION. The complex post-rotation and reordering (44_postrot.md). -/

namespace Sys2Proof.Machine

/-- R176, R182: the bin `k(q) = 2 * drev4_4(q >> 1) + (q & 1)` that point `q` of the input run holds. -/
def binOf (q : Nat) : Nat := 2 * drev4 4 (q / 2) + q % 2

/-- R181: the normalisation shift `HEAD_ROT - clrsb_32(PEAK)`; there is no floor here. -/
def rotShift (cfg : Config) (peak : Word) : Int := (cfg.headRot : Int) - clrsb peak

/-- R182: the rotated point of input point `q`. -/
def rotated (cfg : Config) (r : Int) (zs : List Cplx) (q : Nat) : Sat Cplx :=
  let x := cshs (point zs q) r
  let y := cmulPos x.val (romEntry cfg.rot (binOf q))
  ⟨y.val, x.ov || y.ov⟩

/-- R183: element `i` of `t`, from the rotated points in input order: `t[2k] = re(y_k)` and `t[1023 - 2k] = im(y_k)`, so an
even `i` holds the real part of bin `i/2` and an odd `i` the imaginary part of bin `511 - i/2`. The input point of a bin is
found by the same map, which is its own inverse (R176; log 14). -/
def placed (ys : List Cplx) (i : Nat) : Word :=
  if i % 2 = 0 then (point ys (binOf (i / 2))).re else (point ys (binOf (nMix - 1 - i / 2))).im

/-- R184: word `i` of the new run: the second half is the first half of `t` as it is, the first half is the second half of
`t` negated, with saturation. -/
def rotatedWord (ys : List Cplx) (i : Nat) : Sat Word :=
  if i < nMix then sat32 (0 - s32 (placed ys (nMix + i))) else ⟨placed ys (i - nMix), false⟩

/-- R180: what `POSTROT` computes from the points and the normalisation shift: the 1024 words of the new run. -/
def postRotate (cfg : Config) (r : Int) (zs : List Cplx) : Sat (List Word) :=
  let ys := Sat.collect ((List.range nMix).map (rotated cfg r zs))
  let out := Sat.collect ((List.range (2 * nMix)).map (rotatedWord ys.val))
  ⟨out.val, ys.ov || out.ov⟩

/-- R180, R185: what `POSTROT` does to the run at `base`; `PEAK` stays. -/
def postrotEffect (cfg : Config) (base : Nat) (s : State) : State :=
  let r := rotShift cfg s.peakWord
  let out := postRotate cfg r (s.points base nMix)
  ((s.setBufRun base out.val).orOv out.ov).setExp (BitVec.ofInt 32 r)

/-- R180: `POSTROT rs1`, a run of 1024 words. -/
def execPostrot (rs1 : RegNum) (s : State) : Result := withRun (.postrot rs1) rs1 (2 * nMix) (postrotEffect config) s

end Sys2Proof.Machine
end

