-- ==== Sys2Proof/Machine/Dispatch.lean ====
section
/-! DEFINITION. The meaning of each command: 30_encoding.md R80 steps 5 and 6. Steps 1 to 4 come before it, in
Machine/HostInterface.lean. -/

namespace Sys2Proof.Machine

def exec (i : Instr) (s : State) : Host.Outcome State Fault Refusal :=
  match i with
  | .nop => Sys2Proof.Machine.execNop s
  | .li rd imm => Sys2Proof.Machine.execLi rd imm s
  | .lih rd imm => Sys2Proof.Machine.execLih rd imm s
  | .mfs rd imm => Sys2Proof.Machine.execMfs rd imm s
  | .mts imm rs1 => Sys2Proof.Machine.execMts imm rs1 s
  | .ldw rd imm rs1 => Sys2Proof.Machine.execLdw rd imm rs1 s
  | .stw rs2 imm rs1 => Sys2Proof.Machine.execStw rs2 imm rs1 s
  | .clrov => Sys2Proof.Machine.execClrov s
  | .norm32 rd rs1 => Sys2Proof.Machine.execNorm32 rd rs1 s
  | .norm16 rd rs1 => Sys2Proof.Machine.execNorm16 rd rs1 s
  | .add32 rd rs1 rs2 => Sys2Proof.Machine.execAdd32 rd rs1 rs2 s
  | .sub32 rd rs1 rs2 => Sys2Proof.Machine.execSub32 rd rs1 rs2 s
  | .add16 rd rs1 rs2 => Sys2Proof.Machine.execAdd16 rd rs1 rs2 s
  | .sub16 rd rs1 rs2 => Sys2Proof.Machine.execSub16 rd rs1 rs2 s
  | .mul16 rd rs1 rs2 => Sys2Proof.Machine.execMul16 rd rs1 rs2 s
  | .mac16 rd rs1 rs2 => Sys2Proof.Machine.execMac16 rd rs1 rs2 s
  | .msu16 rd rs1 rs2 => Sys2Proof.Machine.execMsu16 rd rs1 rs2 s
  | .rnd16 rd rs1 => Sys2Proof.Machine.execRnd16 rd rs1 s
  | .mulq rd rs1 rs2 => Sys2Proof.Machine.execMulq rd rs1 rs2 s
  | .shl32 rd rs1 rs2 => Sys2Proof.Machine.execShl32 rd rs1 rs2 s
  | .shr32 rd rs1 rs2 => Sys2Proof.Machine.execShr32 rd rs1 rs2 s
  | .mov rd rs1 => Sys2Proof.Machine.execMov rd rs1 s
  | .fft4l rs1 => Sys2Proof.Machine.execFft4l rs1 s
  | .fft4s rs1 => Sys2Proof.Machine.execFft4s rs1 s
  | .mixfft rs1 => Sys2Proof.Machine.execMixfft rs1 s
  | .postrot rs1 => Sys2Proof.Machine.execPostrot rs1 s

end Sys2Proof.Machine
end

