-- ==== Sys2Proof/Machine/HostInterface.lean ====
section
/-! DEFINITION. The host's transactions (20_memory.md R60) and the order of checks of a command (30_encoding.md R80). -/

namespace Sys2Proof.Machine

/-- R80: `HostCmd(w)`. While `ERR = 1` it is refused and changes nothing at all (R214); a word that is no command raises
`Fault(1)` (R87); a command is executed. -/
def hostCmd (w : Word) (s : State) : Result :=
  if s.err then .next s
  else
    match decode w with
    | .error _ => .next (s.raiseFault .illegalCommand w)
    | .ok i => exec i s

/-- R230, R231: `Reset`: every register and flag as after power-on and every word of `BUF` unspecified afresh (R40). What the
host has still to issue is the host's and stays. -/
def hostReset (s : State) : State := { State.reset with resets := s.resets + 1, pending := s.pending }

/-- A transaction returns a value to the host (R60). -/
def State.answer (s : State) (v : Word) : State := { s with reply := some v }

/-- R60: the effect of each transaction. All but `HostCmd` work whether or not `ERR` is set. -/
def transact : Transaction → State → Result
  | .reset, s => .next (hostReset s)
  | .cmd w, s => hostCmd w s
  | .readReg i, s => .next (s.answer (s.reg i))
  | .writeReg i v, s => .next (s.setReg i v)
  | .readSreg n, s => .next (s.answer (s.readSreg n))
  | .writeSreg n v, s => .next (s.writeSreg n v)
  | .readBuf a, s => .next (s.answer (s.bufWord a.val))
  | .writeBuf a v, s => .next (s.setBufWord a.val v)

/-- R69: the host's next transaction taken off its list, nothing returned yet. -/
def State.issue (s : State) (rest : List Transaction) : State := { s with pending := rest, reply := none }

/-- One transaction in the order the host issues them (R60, R61), or idling while it issues none (R222, R231; log 4). -/
def hostStep (s : State) : Result :=
  match s.pending with
  | [] => .next s
  | t :: rest => transact t (s.issue rest)

end Sys2Proof.Machine
end

