-- ==== Sys2Proof/Machine/Step.lean ====
section
/-! DEFINITION. The step of the machine: one host transaction (20_memory.md R60, R61: "A model gives `HostCmd` one step"). -/

namespace Sys2Proof.Machine

/-- One step: the host's next transaction, whole. -/
def step (s : State) : Host.Outcome State Fault Refusal := hostStep s

/-- `s` with the command word `w` presented by the host as its very next transaction (log 3). The CORE fetches nothing (R23):
what stands for the place a program is fetched from is the host's list of transactions. -/
def State.withFetchWord (s : State) (nbits w : Nat) : State :=
  { s with pending := .cmd (BitVec.ofNat 32 (w % 2 ^ nbits)) :: s.pending }

end Sys2Proof.Machine
end

