-- ==== Sys2Proof/Machine/Assembler.lean ====
section
/-! DEFINITION. The assembler's side of the command set (30_encoding.md R89, R90): the textual form of a command, the one
pseudo-instruction, and a program as the transactions that present it (10_state.md R23). Nothing here is the CORE's. -/

namespace Sys2Proof.Machine

/-- R89: registers are written `r0 .. r7`. -/
def regText (r : RegNum) : String := "r" ++ toString r.val

/-- R89: special registers are written by name, or by number where they have no name. -/
def sregText (n : Half) : String :=
  match n.toNat with
  | 0 => "STATUS"
  | 1 => "PEAK"
  | 2 => "EXP"
  | 3 => "ECMD"
  | k => toString k

/-- One hexadecimal digit. -/
def hexDigit (d : Nat) : String :=
  match d with
  | 10 => "A"
  | 11 => "B"
  | 12 => "C"
  | 13 => "D"
  | 14 => "E"
  | 15 => "F"
  | k => toString k

/-- R86, R89: a raw immediate in hexadecimal. -/
def hexText (h : Half) : String :=
  "0x" ++ hexDigit (h.toNat / 4096) ++ hexDigit (h.toNat / 256 % 16) ++ hexDigit (h.toNat / 16 % 16) ++
    hexDigit (h.toNat % 16)

/-- R86, R89: a signed immediate in decimal. -/
def signedText (h : Half) : String := toString h.toInt

/-- R89: operands separated by commas, after the mnemonic. -/
def asmLine (mnemonic : String) (operands : List String) : String :=
  match operands with
  | [] => mnemonic
  | _ => mnemonic ++ " " ++ String.intercalate ", " operands

/-- R89: the operand `imm(rs1)` of `LDW` and `STW`. -/
def indexedText (imm : Half) (rs1 : RegNum) : String := signedText imm ++ "(" ++ regText rs1 ++ ")"

/-- R89: the operands of a command, destination first. Raw immediates (`LIH`) are printed in hexadecimal and signed ones in
decimal, one of the spellings R89 allows (log 19). -/
def operandTexts : Instr → List String
  | .nop | .clrov => []
  | .li rd imm => [regText rd, signedText imm]
  | .lih rd imm => [regText rd, hexText imm]
  | .mfs rd n => [regText rd, sregText n]
  | .mts n rs1 => [sregText n, regText rs1]
  | .ldw rd imm rs1 => [regText rd, indexedText imm rs1]
  | .stw rs2 imm rs1 => [regText rs2, indexedText imm rs1]
  | .norm32 rd rs1 | .norm16 rd rs1 | .rnd16 rd rs1 | .mov rd rs1 => [regText rd, regText rs1]
  | .add32 rd rs1 rs2 | .sub32 rd rs1 rs2 | .add16 rd rs1 rs2 | .sub16 rd rs1 rs2 | .mul16 rd rs1 rs2
  | .mac16 rd rs1 rs2 | .msu16 rd rs1 rs2 | .mulq rd rs1 rs2 | .shl32 rd rs1 rs2 | .shr32 rd rs1 rs2 =>
    [regText rd, regText rs1, regText rs2]
  | .fft4l rs1 | .fft4s rs1 | .mixfft rs1 | .postrot rs1 => [regText rs1]

/-- R89: the textual form of a command. -/
def asmText (i : Instr) : String := asmLine i.mnemonic (operandTexts i)

/-- R89: the field of a signed immediate, or nothing where the immediate does not fit its reading (an assembler error, not a
truncation). -/
def signedImmediate (v : Int) : Option Half := if -32768 ≤ v ∧ v ≤ 32767 then some (BitVec.ofInt 16 v) else none

/-- R89: the field of an unsigned or raw immediate, or nothing where it does not fit. -/
def unsignedImmediate (v : Int) : Option Half := if 0 ≤ v ∧ v ≤ 65535 then some (BitVec.ofInt 16 v) else none

/-- R90: the pseudo-instruction `LI32 rd, imm32`: `LI` of the low half, then `LIH` of the high half. -/
def li32 (rd : RegNum) (imm32 : Word) : List Instr := [.li rd (imm32.setWidth 16), .lih rd (imm32.extractLsb' 16 16)]

/-- R23, R60: a program, a list of commands, as the transactions by which the host presents it in order. -/
def program (cs : List Instr) : List Transaction := cs.map fun i => .cmd (encode i)

end Sys2Proof.Machine
end

