-- ==== Sys2Proof/Safety.lean ====
section
/-! DEFINITION. What claims about the machine speak of: ranges, the parts of the state a command may write, what a recorded
fault says, and the invariant of every step. -/

namespace Sys2Proof.Machine

/-! ### Ranges (00_scope.md R13) -/

/-- R112: the exact value clamped to the signed `w`-bit range. -/
def clamp (w : Nat) (x : Int) : Int := max (-(2 ^ (w - 1))) (min x (2 ^ (w - 1) - 1))

/-- R13: the exact value is outside the signed `w`-bit range. -/
def outOfRange (w : Nat) (x : Int) : Bool := decide (x < -(2 ^ (w - 1)) ∨ 2 ^ (w - 1) - 1 < x)

/-- R35: a run of `len` words may start at `base` (R65: even, and inside `BUF`). -/
def legalRun (base : Word) (len : Nat) : Prop := base.toNat % 2 = 0 ∧ base.toNat + len ≤ 2048

/-- R29: `PEAK` is a true estimate of the run: every word's `mag` is at most `PEAK`. -/
def trueEstimate (s : State) (base len : Nat) : Prop :=
  ∀ w, w < len → (mag (s.bufWord (base + w))).toNat ≤ s.peak.toNat

/-- R146: the bitwise OR of `mag` over the words of a run. -/
def runPeak (s : State) (base len : Nat) : BitVec 31 := (s.bufRun base len).foldl (fun p v => p ||| mag v) 0

/-- R22, R32: what a transform leaves alone besides the words outside its run: the general registers (R22), the fault
latch (R212), and the host's side. -/
def restUnchanged (s t : State) : Prop :=
  t.regs = s.regs ∧ t.err = s.err ∧ t.cause = s.cause ∧ t.ecmd = s.ecmd ∧ t.resets = s.resets ∧ t.pending = s.pending ∧
    t.reply = s.reply

/-- R34: no word outside the run of `len` words at `base` is different. -/
def outsideUnchanged (s t : State) (base len : Nat) : Prop :=
  ∀ a, ¬(base ≤ a ∧ a < base + len) → t.bufWord a = s.bufWord a

/-! ### What a command may write -/

/-- R22: the general register that a command writes, if it writes one. -/
def destination : Instr → Option RegNum
  | .li rd _ | .lih rd _ | .mfs rd _ | .ldw rd _ _ | .norm32 rd _ | .norm16 rd _ | .rnd16 rd _ | .mov rd _ => some rd
  | .add32 rd _ _ | .sub32 rd _ _ | .add16 rd _ _ | .sub16 rd _ _ | .mul16 rd _ _ | .mac16 rd _ _ | .msu16 rd _ _
  | .mulq rd _ _ | .shl32 rd _ _ | .shr32 rd _ _ => some rd
  | .nop | .clrov | .mts .. | .stw .. | .fft4l .. | .fft4s .. | .mixfft .. | .postrot .. => none

/-- R25, R196, R197: the commands that may write `OV`. -/
def mayWriteOv : Instr → Bool
  | .add32 .. | .sub32 .. | .add16 .. | .sub16 .. | .mac16 .. | .msu16 .. | .rnd16 .. | .mulq .. | .shl32 .. => true
  | .fft4l .. | .fft4s .. | .mixfft .. | .postrot .. | .clrov => true
  | .mts n _ => n == 0
  | .nop | .li .. | .lih .. | .mfs .. | .ldw .. | .stw .. | .norm32 .. | .norm16 .. | .mul16 .. | .shr32 .. | .mov .. => false

/-- R27, R32: the commands that may write `PEAK`. -/
def mayWritePeak : Instr → Bool
  | .fft4l .. | .fft4s .. | .mixfft .. => true
  | .mts n _ => n == 1
  | .nop | .clrov | .li .. | .lih .. | .mfs .. | .ldw .. | .stw .. | .norm32 .. | .norm16 .. | .add32 .. | .sub32 ..
  | .add16 .. | .sub16 .. | .mul16 .. | .mac16 .. | .msu16 .. | .rnd16 .. | .mulq .. | .shl32 .. | .shr32 .. | .mov ..
  | .postrot .. => false

/-- R27, R32: the commands that may write `EXP`. -/
def mayWriteExp : Instr → Bool
  | .fft4l .. | .fft4s .. | .mixfft .. | .postrot .. => true
  | .mts n _ => n == 2
  | .nop | .clrov | .li .. | .lih .. | .mfs .. | .ldw .. | .stw .. | .norm32 .. | .norm16 .. | .add32 .. | .sub32 ..
  | .add16 .. | .sub16 .. | .mul16 .. | .mac16 .. | .msu16 .. | .rnd16 .. | .mulq .. | .shl32 .. | .shr32 .. | .mov .. => false

/-- R34: the words of `BUF` that a command may write, as first index and length: the address of `STW`, the run of a
transform, nothing for any other command. -/
def footprint (s : State) : Instr → Nat × Nat
  | .stw _ imm rs1 => ((s.effectiveAddress rs1 imm).toNat, 1)
  | .fft4l rs1 => ((s.reg rs1).toNat, 512)
  | .fft4s rs1 => ((s.reg rs1).toNat, 128)
  | .mixfft rs1 | .postrot rs1 => ((s.reg rs1).toNat, 1024)
  | .nop | .clrov | .li .. | .lih .. | .mfs .. | .mts .. | .ldw .. | .norm32 .. | .norm16 .. | .add32 .. | .sub32 ..
  | .add16 .. | .sub16 .. | .mul16 .. | .mac16 .. | .msu16 .. | .rnd16 .. | .mulq .. | .shl32 .. | .shr32 .. | .mov .. => (0, 0)

/-! ### What a recorded fault says (60_exceptions.md R211) -/

/-- The commands that reach one word of `BUF`. -/
def isBufferAccess : Instr → Bool
  | .ldw .. | .stw .. => true
  | _ => false

/-- The commands that reach a run of `BUF`. -/
def isTransform : Instr → Bool
  | .fft4l .. | .fft4s .. | .mixfft .. | .postrot .. => true
  | _ => false

/-- R211, columns "Raised by" and "Condition": a cause code that command word `w` can have raised. Causes 5 to 15, and 0, are
never raised. -/
def faultRecord (cause : BitVec 4) (w : Word) : Prop :=
  (cause = 1 ∧ ∃ e, decode w = .error e) ∨
  (cause = 2 ∧ ∃ i, decode w = .ok i ∧ (isBufferAccess i = true ∨ isTransform i = true)) ∨
  (cause = 3 ∧ ∃ i, decode w = .ok i ∧ isTransform i = true) ∨
  (cause = 4 ∧ ∃ i, decode w = .ok i ∧ i.wellFormed = false)

/-- The invariant of every step: `BUF` is in its canonical form; `CAUSE` and `ECMD` are 0 while `ERR = 0` (R28, R31); while
`ERR = 1` they record a fault that the word in `ECMD` can have raised (R211, R212). -/
structure Inv (s : State) : Prop where
  bufCanonical : s.buf.wf = true
  noFaultRecorded : s.err = false → s.cause = 0 ∧ s.ecmd = 0
  faultRecorded : s.err = true → faultRecord s.cause s.ecmd

/-- A run is safe while no fault is latched (R210, R214). -/
def running (s : State) : Prop := s.err = false

end Sys2Proof.Machine
end

