-- ==== Sys2Proof/Certificates/Slice0/Obligations.lean ====
section
/-! DEFINITION. The statements about the machine that are given to the provers. Each docstring names the rules of spec/ that
its statement comes from; where a clause is the model's own choice it names the log entry. -/

open Sys2Proof Sys2Proof.Machine

/-! ### Encoding -/

/-- R82, R84, R85. Every command's word decodes to that command, whatever its operands: no bit of an encoding is dropped. -/
def Obligations.DecodeInvertsEncode : Prop := ∀ i : Instr, decode (encode i) = .ok i

/-- R84, R85, R87. A word that decodes is the one word of the command it decodes to: no two words are one command. -/
def Obligations.EncodeInvertsDecode : Prop := ∀ (w : Word) (i : Instr), decode w = .ok i → encode i = w

/-- R84. "A word `w` is the command of a row exactly when `w & mask = match`." -/
def Obligations.WordIsCommandOfTheRowItMatches : Prop :=
  ∀ row ∈ opcodeTable, ∀ w : Word,
    (w &&& row.mask = row.pattern ↔ ∃ i, decode w = .ok i ∧ i.mnemonic = row.mnemonic)

/-- R85, R87. The illegal words, said of the word's own bits: an unassigned opcode, `z = 1`, or a nonzero field that the
opcode does not use. -/
def Obligations.IllegalWordsAreExactlyThoseOfTheRule : Prop :=
  ∀ w : Word,
    let op := w.toNat / 2 ^ 26
    let rd := w.toNat / 2 ^ 23 % 8
    let rs1 := w.toNat / 2 ^ 20 % 8
    let rs2 := w.toNat / 2 ^ 17 % 8
    let z := w.toNat / 2 ^ 16 % 2
    let imm := w.toNat % 2 ^ 16
    (∃ e, decode w = .error e) ↔
      (op = 0x16 ∨ op = 0x17 ∨ 0x1C ≤ op) ∨ z = 1 ∨
      (rd ≠ 0 ∧ op ∈ [0x00, 0x04, 0x06, 0x07, 0x18, 0x19, 0x1A, 0x1B]) ∨
      (rs1 ≠ 0 ∧ op ∈ [0x00, 0x01, 0x02, 0x03, 0x07]) ∨
      (rs2 ≠ 0 ∧ op ∈ [0x00, 0x01, 0x02, 0x03, 0x04, 0x05, 0x07, 0x08, 0x09, 0x11, 0x15, 0x18, 0x19, 0x1A, 0x1B]) ∨
      (imm ≠ 0 ∧ op ∈ [0x00, 0x07, 0x08, 0x09, 0x0A, 0x0B, 0x0C, 0x0D, 0x0E, 0x0F, 0x10, 0x11, 0x12, 0x13, 0x14, 0x15,
        0x18, 0x19, 0x1A, 0x1B])

/-- R89 and each family's rules: the words the spec writes out decode to the commands it writes beside them. -/
def Obligations.WordsOfTheSpecDecode : Prop :=
  decode 0x00000000 = .ok .nop ∧ decode 0x0480FFFE = .ok (.li 1 0xFFFE) ∧ decode 0x08807FFF = .ok (.lih 1 0x7FFF) ∧
  decode 0x0D000002 = .ok (.mfs 2 2) ∧ decode 0x10300001 = .ok (.mts 1 3) ∧ decode 0x16000005 = .ok (.ldw 4 5 0) ∧
  decode 0x1858FFFF = .ok (.stw 4 0xFFFF 5) ∧ decode 0x21100000 = .ok (.norm32 2 1) ∧
  decode 0x29940000 = .ok (.add32 3 1 2) ∧ decode 0x64100000 = .ok (.fft4s 1) ∧ decode 0x68000000 = .ok (.mixfft 0) ∧
  decode 0x6C100000 = .ok (.postrot 1)

/-- R90. `LI32 rd, imm32` is `LI` then `LIH`, and the two leave `imm32` in `rd` whatever its low half's sign. -/
def Obligations.Li32LoadsAnyConstant : Prop :=
  ∀ (rd : RegNum) (v : Word) (s : State),
    ∃ low high, li32 rd v = [.li rd low, .lih rd high] ∧
      ∃ t, exec (.li rd low) s = .next t ∧ exec (.lih rd high) t = .next (s.setReg rd v)

/-! ### The step: one host transaction -/

/-- R60, R80. Presenting a word that decodes, to a CORE that has not faulted, is the meaning of the command it decodes to. What
the step adds is the host's side: the transaction is taken off the host's list and no value is returned yet (log 3, log 5). -/
def Obligations.StepRunsTheDecodedCommand : Prop :=
  ∀ (s : State) (w : Word) (rest : List Transaction) (i : Instr),
    s.pending = .cmd w :: rest → s.err = false → decode w = .ok i →
    step s = exec i { s with pending := rest, reply := none }

/-- R80 steps 3 and 4, R87, R212. Presenting a word that is no command takes the fault with cause 1. That the step takes the
transaction off the host's list and leaves no returned value is the model's own choice (log 3, log 5). -/
def Obligations.IllegalWordTakesFaultOne : Prop :=
  ∀ (s : State) (w : Word) (rest : List Transaction) (e : DecodeError),
    s.pending = .cmd w :: rest → s.err = false → decode w = .error e →
    step s = .next { s with pending := rest, reply := none, err := true, cause := 1, ecmd := w }

/-- R80 step 1, R214. While `ERR = 1` every command word is refused and changes nothing of the CORE. That a refused command uses up
its transaction and leaves no returned value is the model's own choice (log 15, log 3, log 5). -/
def Obligations.FaultedCoreRefusesEveryCommand : Prop :=
  ∀ (s : State) (w : Word) (rest : List Transaction),
    s.pending = .cmd w :: rest → s.err = true → step s = .next { s with pending := rest, reply := none }

/-- R222, R231, and the model's choice of log 4: with no transaction issued the CORE holds its state. -/
def Obligations.IdleCoreHoldsItsState : Prop := ∀ s : State, s.pending = [] → step s = .next s

/-- R27, R28, R29, R60, R66. The host's reads return the element's value and change nothing of the CORE; they work whether or not
`ERR` is set. That the returned value is held in `reply` and the transaction taken off `pending` is the model's own choice (log 5,
log 3). -/
def Obligations.HostReadsAnswerAndChangeNothing : Prop :=
  ∀ (s : State) (rest : List Transaction),
    (∀ i, s.pending = .readReg i :: rest → step s = .next { s with pending := rest, reply := some (s.reg i) }) ∧
    (s.pending = .readSreg .status :: rest →
      step s = .next { s with
        pending := rest
        reply := some (BitVec.ofNat 32 (s.ov.toNat + 2 * s.err.toNat + 16 * s.cause.toNat)) }) ∧
    (s.pending = .readSreg .peak :: rest →
      step s = .next { s with pending := rest, reply := some (BitVec.ofNat 32 s.peak.toNat) }) ∧
    (s.pending = .readSreg .exp :: rest → step s = .next { s with pending := rest, reply := some s.exp }) ∧
    (s.pending = .readSreg .ecmd :: rest → step s = .next { s with pending := rest, reply := some s.ecmd }) ∧
    (∀ a : Fin bufWords, s.pending = .readBuf a :: rest →
      step s = .next { s with pending := rest, reply := some (s.bufWord a.val) })

/-- R60. The host's writes reach the one element they name and nothing else of the CORE, whether or not `ERR` is set. That the
transaction is taken off `pending` and `reply` is left empty is the model's own choice (log 3, log 5). -/
def Obligations.HostWritesReachOneElement : Prop :=
  ∀ (s : State) (rest : List Transaction) (v : Word),
    (∀ i, s.pending = .writeReg i v :: rest →
      ∃ t, step s = .next t ∧ t = { s with pending := rest, reply := none, regs := t.regs } ∧
        ∀ j, t.reg j = if j = i then v else s.reg j) ∧
    (s.pending = .writeSreg .status v :: rest →
      step s = .next { s with pending := rest, reply := none, ov := decide (v.toNat % 2 = 1) }) ∧
    (s.pending = .writeSreg .peak v :: rest →
      step s = .next { s with pending := rest, reply := none, peak := BitVec.ofNat 31 v.toNat }) ∧
    (s.pending = .writeSreg .exp v :: rest → step s = .next { s with pending := rest, reply := none, exp := v }) ∧
    (∀ a : Fin bufWords, s.pending = .writeBuf a v :: rest →
      ∃ t, step s = .next t ∧ t = { s with pending := rest, reply := none, buf := t.buf } ∧
        ∀ b, t.bufWord b = if b = a.val then v else s.bufWord b)

/-- R39, R230. After `Reset`, from any state, every register and flag is 0. The values of the model's own fields are those of
log 2, log 3 and log 5, and `BUF` holds the free value of R40 (log 1). -/
def Obligations.ResetClearsEveryRegister : Prop :=
  ∀ (s : State) (rest : List Transaction), s.pending = .reset :: rest →
    ∃ t, step s = .next t ∧ (∀ i, t.reg i = 0) ∧ t.ov = false ∧ t.err = false ∧ t.cause = 0 ∧ t.statusWord = 0 ∧
      t.peak = 0 ∧ t.exp = 0 ∧ t.ecmd = 0 ∧ t.pending = rest ∧ t.reply = none ∧ t.resets = s.resets + 1 ∧
      ∀ a, t.bufWord a = Config.bufAtReset (s.resets + 1) a

/-- R61, R236, R240. Every transaction in every state ends in a next state: no command hangs, and none is undefined. It rests on
two choices of the model: a fault and a refused command are next states (log 20), and with an empty list idling is a step
(log 4). -/
def Obligations.StepAlwaysAnswersANextState : Prop := ∀ s : State, ∃ t, step s = .next t

/-! ### Invariants of every step -/

/-- R39. The state after reset meets the invariant. The clauses on the fault latch are the rule's; the canonical form of the list
that holds `BUF` is the model's own representation (log 21). -/
def Obligations.ResetMeetsTheInvariant : Prop := Inv State.reset

/-- R28, R31, R211, R212. Every step, from any state that meets the invariant, keeps it: `CAUSE` and `ECMD` are 0 while
`ERR = 0`, and while `ERR = 1` they record a fault that the word in `ECMD` can have raised. The remaining clause, that the list
which holds `BUF` stays in its canonical form, is the model's own choice of representation (log 21) and no rule's; only that its
indices lie below `BUF_WORDS` is R34's. -/
def Obligations.StepKeepsTheInvariant : Prop := ∀ s t : State, Inv s → step s = .next t → Inv t

/-- R215. Only `Reset` clears `ERR`, `CAUSE` and `ECMD`. -/
def Obligations.OnlyResetClearsTheFault : Prop :=
  ∀ s t : State, s.err = true → s.pending.head? ≠ some .reset → step s = .next t →
    t.err = true ∧ t.cause = s.cause ∧ t.ecmd = s.ecmd

/-- R24. `OV` is cleared only by `Reset`, by the host's or `MTS`'s write of `STATUS` with bit 0 clear, and by `CLROV`. -/
def Obligations.OverflowFlagIsSticky : Prop :=
  ∀ s t : State, s.ov = true → step s = .next t → t.ov = false →
    ∃ x rest, s.pending = x :: rest ∧
      (x = .reset ∨ (∃ v : Word, x = .writeSreg .status v ∧ v.toNat % 2 = 0) ∨
        (s.err = false ∧ ∃ w, x = .cmd w ∧
          (decode w = .ok .clrov ∨ ∃ rs1, decode w = .ok (.mts 0 rs1) ∧ (s.reg rs1).toNat % 2 = 0)))

/-- R210, R212. A fault is precise: a command either leaves the fault latch as it was, or changes nothing but the latch. -/
def Obligations.CommandFaultIsPrecise : Prop :=
  ∀ (i : Instr) (s t : State), exec i s = .next t →
    (t.err = s.err ∧ t.cause = s.cause ∧ t.ecmd = s.ecmd) ∨
      (t = { s with err := true, cause := t.cause, ecmd := encode i } ∧ t.cause ∈ [2, 3, 4])

/-- R212. When presenting `w` raises a fault, `ERR <- 1`, `CAUSE <- c`, `ECMD <- w`, and nothing else of the CORE changes. That the
transaction is taken off `pending` and `reply` is left empty is the model's own choice (log 3, log 5). -/
def Obligations.FaultRecordsThePresentedWord : Prop :=
  ∀ (s t : State) (w : Word) (rest : List Transaction),
    s.pending = .cmd w :: rest → s.err = false → step s = .next t → t.err = true →
    t = { s with pending := rest, reply := none, err := true, cause := t.cause, ecmd := w } ∧ t.cause ∈ [1, 2, 3, 4]

/-- R213, R214, R215. Over any run of steps without a `Reset`, a latched fault, its cause and its word stay: `CAUSE` and `ECMD`
always describe the first fault since reset. -/
def Obligations.FirstFaultIsKeptUntilReset : Prop :=
  ∀ (k : Nat) (s t : State), s.err = true → Transaction.reset ∉ s.pending.take k →
    Host.Core.run Sys2Proof.core k s = .next t → t.err = true ∧ t.cause = s.cause ∧ t.ecmd = s.ecmd

/-! ### Frames -/

/-- R22, R212. A command changes no general register but its destination. -/
def Obligations.GeneralRegisterFrame : Prop :=
  ∀ (i : Instr) (s t : State) (j : RegNum), exec i s = .next t → destination i ≠ some j → t.reg j = s.reg j

/-- R34, R64, R65, R212. A command changes no word of `BUF` outside the address of `STW` or the run of a transform. -/
def Obligations.BufferFrame : Prop :=
  ∀ (i : Instr) (s t : State) (a : Nat), exec i s = .next t →
    ¬((footprint s i).1 ≤ a ∧ a < (footprint s i).1 + (footprint s i).2) → t.bufWord a = s.bufWord a

/-- R25, R27, R32. Which commands leave `OV`, `PEAK` and `EXP` alone; no command touches the host's side (R23; log 2, log 3,
log 5). -/
def Obligations.SpecialRegisterFrame : Prop :=
  ∀ (i : Instr) (s t : State), exec i s = .next t →
    (mayWriteOv i = false → t.ov = s.ov) ∧ (mayWritePeak i = false → t.peak = s.peak) ∧
    (mayWriteExp i = false → t.exp = s.exp) ∧ t.resets = s.resets ∧ t.pending = s.pending ∧ t.reply = s.reply

/-! ### Normalization -/

/-- R101. `NORM32` writes the largest `n` in `0 .. 31` by which the source can be shifted left without leaving the 32-bit
range, and nothing else; its word is the rule's. -/
def Obligations.Norm32WritesTheLargestSafeShift : Prop :=
  ∀ (rd rs1 : RegNum) (s : State),
    encode (.norm32 rd rs1) = BitVec.ofNat 32 (0x20000000 + rd.val * 2 ^ 23 + rs1.val * 2 ^ 20) ∧
    ∃ n : Nat, n ≤ 31 ∧ exec (.norm32 rd rs1) s = .next (s.setReg rd (BitVec.ofNat 32 n)) ∧
      outOfRange 32 ((s.reg rs1).toInt * 2 ^ n) = false ∧
      ∀ m : Nat, n < m → m ≤ 31 → outOfRange 32 ((s.reg rs1).toInt * 2 ^ m) = true

/-- R102. `NORM16`, the same for the sample in bits 15:0 of the source. -/
def Obligations.Norm16WritesTheLargestSafeShift : Prop :=
  ∀ (rd rs1 : RegNum) (s : State),
    encode (.norm16 rd rs1) = BitVec.ofNat 32 (0x24000000 + rd.val * 2 ^ 23 + rs1.val * 2 ^ 20) ∧
    ∃ n : Nat, n ≤ 15 ∧ exec (.norm16 rd rs1) s = .next (s.setReg rd (BitVec.ofNat 32 n)) ∧
      outOfRange 16 (((s.reg rs1).setWidth 16).toInt * 2 ^ n) = false ∧
      ∀ m : Nat, n < m → m ≤ 15 → outOfRange 16 (((s.reg rs1).setWidth 16).toInt * 2 ^ m) = true

/-- R100. The closed forms of the normalisation function at both widths. -/
def Obligations.LeadingBitCountClosedForms : Prop :=
  (∀ v : Word,
    (v.toInt = 0 → clrsb v = 31) ∧ (0 < v.toInt → clrsb v = 30 - v.toInt.toNat.log2) ∧
    (v.toInt = -1 → clrsb v = 31) ∧ (v.toInt < -1 → clrsb v = 30 - (-v.toInt - 1).toNat.log2)) ∧
  (∀ v : Half,
    (v.toInt = 0 → clrsb v = 15) ∧ (0 < v.toInt → clrsb v = 14 - v.toInt.toNat.log2) ∧
    (v.toInt = -1 → clrsb v = 15) ∧ (v.toInt < -1 → clrsb v = 14 - (-v.toInt - 1).toNat.log2))

/-- R103, which the spec itself derives from R19 and R100. Normalising and shifting left by the count never sets `OV`, gives the exact
product, and leaves a count of 0 unless the value is 0; a value and its one's complement have the same count; a peak is below
`2^(31 - clrsb_32)`; and the same at width 16. -/
def Obligations.NormaliseThenShiftNeverSaturates : Prop :=
  (∀ (ra rn rb : RegNum) (s t u : State), rn ≠ ra → exec (.norm32 rn ra) s = .next t → exec (.shl32 rb ra rn) t = .next u →
    u.ov = s.ov ∧ (u.reg rb).toInt = (s.reg ra).toInt * 2 ^ clrsb (s.reg ra) ∧
    (s.reg ra ≠ 0 → clrsb (u.reg rb) = 0)) ∧
  (∀ v : Word, clrsb (~~~v) = clrsb v ∧ (0 ≤ v.toInt → v.toInt < 2 ^ (31 - clrsb v)) ∧
    (clrsb v < 31 → outOfRange 32 (v.toInt * 2 ^ (clrsb v + 1)) = true)) ∧
  (∀ v : Half, clrsb (~~~v) = clrsb v ∧ (0 ≤ v.toInt → v.toInt < 2 ^ (15 - clrsb v)) ∧
    outOfRange 16 (v.toInt * 2 ^ clrsb v) = false ∧
    (clrsb v < 15 → outOfRange 16 (v.toInt * 2 ^ (clrsb v + 1)) = true) ∧
    (v ≠ 0 → clrsb (BitVec.ofInt 16 (v.toInt * 2 ^ clrsb v)) = 0))

/-! ### Arithmetic -/

/-- R112, R113. `ADD32` and `SUB32`: the exact sum or difference clamped to 32 bits, `OV` set when it is out of range and
otherwise as it was, nothing else changed. -/
def Obligations.AddAndSubtractSaturateAtThirtyTwoBits : Prop :=
  ∀ (rd rs1 rs2 : RegNum) (s : State),
    let a := (s.reg rs1).toInt
    let b := (s.reg rs2).toInt
    encode (.add32 rd rs1 rs2) = BitVec.ofNat 32 (0x28000000 + rd.val * 2 ^ 23 + rs1.val * 2 ^ 20 + rs2.val * 2 ^ 17) ∧
    exec (.add32 rd rs1 rs2) s = .next { s.setReg rd (BitVec.ofInt 32 (clamp 32 (a + b))) with
      ov := s.ov || outOfRange 32 (a + b) } ∧
    encode (.sub32 rd rs1 rs2) = BitVec.ofNat 32 (0x2C000000 + rd.val * 2 ^ 23 + rs1.val * 2 ^ 20 + rs2.val * 2 ^ 17) ∧
    exec (.sub32 rd rs1 rs2) s = .next { s.setReg rd (BitVec.ofInt 32 (clamp 32 (a - b))) with
      ov := s.ov || outOfRange 32 (a - b) }

/-- R114, R115. `ADD16` and `SUB16`: the samples in bits 15:0, the result clamped to 16 bits and sign-extended. -/
def Obligations.AddAndSubtractSaturateAtSixteenBits : Prop :=
  ∀ (rd rs1 rs2 : RegNum) (s : State),
    let a := ((s.reg rs1).setWidth 16).toInt
    let b := ((s.reg rs2).setWidth 16).toInt
    encode (.add16 rd rs1 rs2) = BitVec.ofNat 32 (0x30000000 + rd.val * 2 ^ 23 + rs1.val * 2 ^ 20 + rs2.val * 2 ^ 17) ∧
    exec (.add16 rd rs1 rs2) s = .next { s.setReg rd (BitVec.ofInt 32 (clamp 16 (a + b))) with
      ov := s.ov || outOfRange 16 (a + b) } ∧
    encode (.sub16 rd rs1 rs2) = BitVec.ofNat 32 (0x34000000 + rd.val * 2 ^ 23 + rs1.val * 2 ^ 20 + rs2.val * 2 ^ 17) ∧
    exec (.sub16 rd rs1 rs2) s = .next { s.setReg rd (BitVec.ofInt 32 (clamp 16 (a - b))) with
      ov := s.ov || outOfRange 16 (a - b) }

/-- R111, R116. `MUL16` writes the exact product of the two samples, which always fits, and touches no flag. -/
def Obligations.MultiplyIsExact : Prop :=
  ∀ (rd rs1 rs2 : RegNum) (s : State),
    encode (.mul16 rd rs1 rs2) = BitVec.ofNat 32 (0x38000000 + rd.val * 2 ^ 23 + rs1.val * 2 ^ 20 + rs2.val * 2 ^ 17) ∧
    ∃ v : Word, exec (.mul16 rd rs1 rs2) s = .next (s.setReg rd v) ∧
      v.toInt = ((s.reg rs1).setWidth 16).toInt * ((s.reg rs2).setWidth 16).toInt ∧
      -0x3FFF8000 ≤ v.toInt ∧ v.toInt ≤ 0x40000000

/-- R117, R118. `MAC16` and `MSU16`: the exact product added to or subtracted from `r[rd]`, clamped to 32 bits; the old `r[rd]`
is read also where it is a factor. -/
def Obligations.AccumulateSaturates : Prop :=
  ∀ (rd rs1 rs2 : RegNum) (s : State),
    let p := ((s.reg rs1).setWidth 16).toInt * ((s.reg rs2).setWidth 16).toInt
    let acc := (s.reg rd).toInt
    encode (.mac16 rd rs1 rs2) = BitVec.ofNat 32 (0x3C000000 + rd.val * 2 ^ 23 + rs1.val * 2 ^ 20 + rs2.val * 2 ^ 17) ∧
    exec (.mac16 rd rs1 rs2) s = .next { s.setReg rd (BitVec.ofInt 32 (clamp 32 (acc + p))) with
      ov := s.ov || outOfRange 32 (acc + p) } ∧
    encode (.msu16 rd rs1 rs2) = BitVec.ofNat 32 (0x40000000 + rd.val * 2 ^ 23 + rs1.val * 2 ^ 20 + rs2.val * 2 ^ 17) ∧
    exec (.msu16 rd rs1 rs2) s = .next { s.setReg rd (BitVec.ofInt 32 (clamp 32 (acc - p))) with
      ov := s.ov || outOfRange 32 (acc - p) }

/-- R119. `RND16`: the high half of the operand plus `0x8000`, saturating, which happens exactly for inputs from `0x7FFF8000`
up; the result fits 16 bits. -/
def Obligations.RoundTakesTheNearestHighHalf : Prop :=
  ∀ (rd rs1 : RegNum) (s : State),
    let x := (s.reg rs1).toInt
    encode (.rnd16 rd rs1) = BitVec.ofNat 32 (0x44000000 + rd.val * 2 ^ 23 + rs1.val * 2 ^ 20) ∧
    ∃ v : Word, exec (.rnd16 rd rs1) s = .next { s.setReg rd v with ov := s.ov || decide (0x7FFF8000 ≤ x) } ∧
      v.toInt = (if 0x7FFF8000 ≤ x then 0x7FFF else (x + 0x8000) / 2 ^ 16) ∧ outOfRange 16 v.toInt = false

/-- R14, R120. `MULQ`: the 48-bit product plus half of the discarded weight, shifted right 15; it saturates for exactly one
pair of operands. -/
def Obligations.FractionalMultiplyRoundsAndSaturatesForOnePair : Prop :=
  ∀ (rd rs1 rs2 : RegNum) (s : State),
    let x := (s.reg rs1).toInt
    let c := ((s.reg rs2).setWidth 16).toInt
    let worst := decide (x = -(2 ^ 31) ∧ c = -(2 ^ 15))
    encode (.mulq rd rs1 rs2) = BitVec.ofNat 32 (0x48000000 + rd.val * 2 ^ 23 + rs1.val * 2 ^ 20 + rs2.val * 2 ^ 17) ∧
    ∃ v : Word, exec (.mulq rd rs1 rs2) s = .next { s.setReg rd v with ov := s.ov || worst } ∧
      v.toInt = if worst then 2 ^ 31 - 1 else (x * c + 0x4000) / 2 ^ 15

/-- R121. `SHL32`: the operand times `2^n`, clamped, with `n` bits 4:0 of `r[rs2]`. -/
def Obligations.LeftShiftSaturates : Prop :=
  ∀ (rd rs1 rs2 : RegNum) (s : State),
    let x := (s.reg rs1).toInt * 2 ^ ((s.reg rs2).toNat % 32)
    encode (.shl32 rd rs1 rs2) = BitVec.ofNat 32 (0x4C000000 + rd.val * 2 ^ 23 + rs1.val * 2 ^ 20 + rs2.val * 2 ^ 17) ∧
    exec (.shl32 rd rs1 rs2) s = .next { s.setReg rd (BitVec.ofInt 32 (clamp 32 x)) with ov := s.ov || outOfRange 32 x }

/-- R12, R122. `SHR32`: the floor of the operand divided by `2^n`, with `n` bits 4:0 of `r[rs2]`, and no flag. -/
def Obligations.RightShiftIsFloorDivision : Prop :=
  ∀ (rd rs1 rs2 : RegNum) (s : State),
    encode (.shr32 rd rs1 rs2) = BitVec.ofNat 32 (0x50000000 + rd.val * 2 ^ 23 + rs1.val * 2 ^ 20 + rs2.val * 2 ^ 17) ∧
    ∃ v : Word, exec (.shr32 rd rs1 rs2) s = .next (s.setReg rd v) ∧
      v.toInt = Int.fdiv (s.reg rs1).toInt (2 ^ ((s.reg rs2).toNat % 32))

/-! ### Moves, special registers, buffer access -/

/-- R190, R197. `NOP` changes nothing; `CLROV` clears `OV` and nothing else; their words are the rules'. -/
def Obligations.NopAndClearOverflow : Prop :=
  encode .nop = 0x00000000 ∧ encode .clrov = 0x1C000000 ∧
  ∀ s : State, exec .nop s = .next s ∧ exec .clrov s = .next { s with ov := false }

/-- R191, R192, R193. `LI` writes the sign-extended immediate; `LIH` replaces bits 31:16 and keeps bits 15:0; `MOV` copies. -/
def Obligations.ConstantsAndMoves : Prop :=
  ∀ (rd rs1 : RegNum) (imm : Half) (s : State),
    encode (.li rd imm) = BitVec.ofNat 32 (0x04000000 + rd.val * 2 ^ 23 + imm.toNat) ∧
    exec (.li rd imm) s = .next (s.setReg rd (BitVec.ofInt 32 imm.toInt)) ∧
    encode (.lih rd imm) = BitVec.ofNat 32 (0x08000000 + rd.val * 2 ^ 23 + imm.toNat) ∧
    exec (.lih rd imm) s = .next (s.setReg rd (BitVec.ofNat 32 (imm.toNat * 2 ^ 16 + (s.reg rd).toNat % 2 ^ 16))) ∧
    encode (.mov rd rs1) = BitVec.ofNat 32 (0x54000000 + rd.val * 2 ^ 23 + rs1.val * 2 ^ 20) ∧
    exec (.mov rd rs1) s = .next (s.setReg rd (s.reg rs1))

/-- R28, R29, R195. `MFS` of each of the four special registers; reading `STATUS` does not clear `OV`. -/
def Obligations.MfsReadsEachSpecialRegister : Prop :=
  ∀ (rd : RegNum) (s : State),
    exec (.mfs rd 0) s =
      .next (s.setReg rd (BitVec.ofNat 32 (s.ov.toNat + 2 * s.err.toNat + 16 * s.cause.toNat))) ∧
    exec (.mfs rd 1) s = .next (s.setReg rd (BitVec.ofNat 32 s.peak.toNat)) ∧
    exec (.mfs rd 2) s = .next (s.setReg rd s.exp) ∧
    exec (.mfs rd 3) s = .next (s.setReg rd s.ecmd)

/-- R28, R29, R196. `MTS`: bit 0 into `OV`, bits 30:0 into `PEAK`, the whole word into `EXP`; nothing else changes, in
particular not `ERR` or `CAUSE`. -/
def Obligations.MtsWritesEachWritableRegister : Prop :=
  ∀ (rs1 : RegNum) (s : State),
    exec (.mts 0 rs1) s = .next { s with ov := decide ((s.reg rs1).toNat % 2 = 1) } ∧
    exec (.mts 1 rs1) s = .next { s with peak := BitVec.ofNat 31 (s.reg rs1).toNat } ∧
    exec (.mts 2 rs1) s = .next { s with exp := s.reg rs1 }

/-- R195, R196, R211, R212. A special register number that does not exist, and `MTS` to `ECMD`, take the fault with cause 4,
and nothing else changes. -/
def Obligations.BadSpecialRegisterTakesFaultFour : Prop :=
  ∀ (r : RegNum) (n : Half) (s : State),
    (3 < n.toNat → exec (.mfs r n) s = .next { s with err := true, cause := 4, ecmd := encode (.mfs r n) }) ∧
    (2 < n.toNat → exec (.mts n r) s = .next { s with err := true, cause := 4, ecmd := encode (.mts n r) })

/-- R64, R198. `LDW` at an index inside `BUF`: the sum of the register and the signed immediate, modulo `2^32`. -/
def Obligations.LoadReadsTheWord : Prop :=
  ∀ (rd rs1 : RegNum) (imm : Half) (s : State) (ea : Nat),
    ((s.reg rs1).toNat + imm.toInt) % 2 ^ 32 = ea → ea < 2048 →
    exec (.ldw rd imm rs1) s = .next (s.setReg rd (s.bufWord ea))

/-- R64, R199. `STW` at an index inside `BUF` changes that one word and nothing else. The last clause, that the list which holds
`BUF` stays canonical, is the model's own choice of representation (log 21). -/
def Obligations.StoreWritesTheWord : Prop :=
  ∀ (rs1 rs2 : RegNum) (imm : Half) (s : State) (ea : Nat),
    ((s.reg rs1).toNat + imm.toInt) % 2 ^ 32 = ea → ea < 2048 →
    ∃ t, exec (.stw rs2 imm rs1) s = .next t ∧ t = { s with buf := t.buf } ∧ t.bufWord ea = s.reg rs2 ∧
      (∀ a, a ≠ ea → t.bufWord a = s.bufWord a) ∧ (s.buf.wf = true → t.buf.wf = true)

/-- R64, R212. An index outside `BUF` takes the fault with cause 2: nothing is read or written. -/
def Obligations.IndexOutsideBufTakesFaultTwo : Prop :=
  ∀ (r rs1 : RegNum) (imm : Half) (s : State) (ea : Nat),
    ((s.reg rs1).toNat + imm.toInt) % 2 ^ 32 = ea → 2048 ≤ ea →
    exec (.ldw r imm rs1) s = .next { s with err := true, cause := 2, ecmd := encode (.ldw r imm rs1) } ∧
    exec (.stw r imm rs1) s = .next { s with err := true, cause := 2, ecmd := encode (.stw r imm rs1) }

/-! ### The transforms -/

/-- R65, R212, R213. The run checks of the four transforms, in their order: an odd base takes cause 3 even where it is also out
of range; an even base whose run does not fit takes cause 2, the sum not reduced modulo `2^32`; after a fault nothing else is
changed. -/
def Obligations.TransformBaseChecks : Prop :=
  let checks := fun (mk : RegNum → Instr) (len : Nat) => ∀ (rs1 : RegNum) (s : State),
    ((s.reg rs1).toNat % 2 = 1 → exec (mk rs1) s = .next { s with err := true, cause := 3, ecmd := encode (mk rs1) }) ∧
    ((s.reg rs1).toNat % 2 = 0 → 2048 < (s.reg rs1).toNat + len →
      exec (mk rs1) s = .next { s with err := true, cause := 2, ecmd := encode (mk rs1) })
  checks .fft4l 512 ∧ checks .fft4s 128 ∧ checks .mixfft 1024 ∧ checks .postrot 1024

/-- R146, R147. `FFT4L` on a legal run completes: the run holds what the engine computes from the old run with the shifts 2, 2,
2, 2; `OV` takes the saturations; `PEAK` is the OR of `mag` over the new run; `EXP` is 8; nothing else changes. -/
def Obligations.LongTransformCompletes : Prop :=
  ∀ (rs1 : RegNum) (s : State), legalRun (s.reg rs1) 512 →
    let base := (s.reg rs1).toNat
    let out := fft4 config [2, 2, 2, 2] (s.points base 256)
    ∃ t, exec (.fft4l rs1) s = .next t ∧
      (∀ p, p < 256 → t.bufWord (base + 2 * p) = (point out.val p).re ∧ t.bufWord (base + 2 * p + 1) = (point out.val p).im) ∧
      t.ov = (s.ov || out.ov) ∧ t.peak = runPeak t base 512 ∧ t.exp = 8 ∧
      outsideUnchanged s t base 512 ∧ restUnchanged s t

/-- R146, R148. `FFT4S` on a legal run completes: the old run is first shifted right by `max(0, 3 - clrsb_32(PEAK))`, then the
engine runs with the shifts 2, 2, 2; `EXP` is that amount plus 6. -/
def Obligations.ShortTransformCompletes : Prop :=
  ∀ (rs1 : RegNum) (s : State), legalRun (s.reg rs1) 128 →
    let base := (s.reg rs1).toNat
    let e0 := 3 - clrsb (BitVec.ofNat 32 s.peak.toNat)
    let out := fft4 config [2, 2, 2] ((s.points base 64).map fun z => ⟨asr z.re e0, asr z.im e0⟩)
    ∃ t, exec (.fft4s rs1) s = .next t ∧
      (∀ p, p < 64 → t.bufWord (base + 2 * p) = (point out.val p).re ∧ t.bufWord (base + 2 * p + 1) = (point out.val p).im) ∧
      t.ov = (s.ov || out.ov) ∧ t.peak = runPeak t base 128 ∧ t.exp = BitVec.ofNat 32 (e0 + 6) ∧
      outsideUnchanged s t base 128 ∧ restUnchanged s t

/-- R170, R171, R173, R174, R175. `MIXFFT` on a legal run completes: place `2p` of the new run is point `p` of the transformed
low half and place `2p + 1` point `p` of the transformed high half; `PEAK` is the OR of `mag` over the new run; `EXP` is the
normalisation shift plus 8. -/
def Obligations.MixedTransformCompletes : Prop :=
  ∀ (rs1 : RegNum) (s : State), legalRun (s.reg rs1) 1024 →
    let base := (s.reg rs1).toNat
    let r : Int := max (4 - clrsb (BitVec.ofNat 32 s.peak.toNat)) (-16)
    let h := radix2 config r (s.points base 512)
    let lo := fft4 config [2, 2, 2, 2] h.val.1
    let hi := fft4 config [2, 2, 2, 2] h.val.2
    ∃ t, exec (.mixfft rs1) s = .next t ∧
      (∀ p, p < 256 →
        t.bufWord (base + 4 * p) = (point lo.val p).re ∧ t.bufWord (base + 4 * p + 1) = (point lo.val p).im ∧
        t.bufWord (base + 4 * p + 2) = (point hi.val p).re ∧ t.bufWord (base + 4 * p + 3) = (point hi.val p).im) ∧
      t.ov = (s.ov || h.ov || lo.ov || hi.ov) ∧ t.peak = runPeak t base 1024 ∧ t.exp = BitVec.ofInt 32 (r + 8) ∧
      outsideUnchanged s t base 1024 ∧ restUnchanged s t

/-- R180 to R185. `POSTROT` on a legal run completes. Input point `q` holds bin `k = 2*drev4_4(q >> 1) + (q & 1)`; the rotated point
`y q` is `cmul_pos` of the point's two words shifted by `shs`, with `ROT[k]`; and each rotated bin stands where the destination
table says: real parts ascending, imaginary parts descending, the halves exchanged, the new first half negated with
saturation. `OV` is set by a saturation of a shift, of a product or of a negation. `PEAK` is not written; `EXP` is the
normalisation shift. -/
def Obligations.PostRotationPlacesEveryBin : Prop :=
  ∀ (rs1 : RegNum) (s : State), legalRun (s.reg rs1) 1024 →
    let base := (s.reg rs1).toNat
    let r : Int := 1 - clrsb (BitVec.ofNat 32 s.peak.toNat)
    let k := fun q : Nat => 2 * drev4 4 (q / 2) + q % 2
    let re := fun q : Nat => shs (s.bufWord (base + 2 * q)) r
    let im := fun q : Nat => shs (s.bufWord (base + 2 * q + 1)) r
    let product := fun q : Nat => cmulPos ⟨(re q).val, (im q).val⟩ (romEntry config.rot (k q))
    let y := fun q : Nat => (product q).val
    let neg := fun v : Word => BitVec.ofInt 32 (clamp 32 (-v.toInt))
    ∃ t, exec (.postrot rs1) s = .next t ∧
      (∀ q, q < 512 →
        rotated config r (s.points base 512) q = ⟨y q, (re q).ov || (im q).ov || (product q).ov⟩ ∧
        (k q < 256 →
          t.bufWord (base + 512 + 2 * k q) = (y q).re ∧ t.bufWord (base + 511 - 2 * k q) = neg (y q).im) ∧
        (256 ≤ k q →
          t.bufWord (base + 2 * k q - 512) = neg (y q).re ∧ t.bufWord (base + 1535 - 2 * k q) = (y q).im)) ∧
      (t.ov = true ↔ s.ov = true ∨ ∃ q, q < 512 ∧
        ((re q).ov = true ∨ (im q).ov = true ∨ (product q).ov = true ∨
          (if k q < 256 then (y q).im.toInt = -(2 ^ 31) else (y q).re.toInt = -(2 ^ 31)))) ∧
      t.peak = s.peak ∧ t.exp = BitVec.ofInt 32 r ∧
      outsideUnchanged s t base 1024 ∧ restUnchanged s t

/-- R15, R176, R182. The position map of `MIXFFT`'s output, `k(q) = 2*drev4_4(q >> 1) + (q & 1)` with the four base-4 digits
reversed, is a map of `0 .. 511` to itself and its own inverse. -/
def Obligations.PositionMapIsItsOwnInverse : Prop :=
  let k := fun q : Nat => 2 * drev4 4 (q / 2) + q % 2
  (∀ p, p < 256 → drev4 4 p = p % 4 * 64 + p / 4 % 4 * 16 + p / 16 % 4 * 4 + p / 64) ∧
  ∀ q, q < 512 → binOf q = k q ∧ k q < 512 ∧ k (k q) = q

/-- R141, R142, R144. A level of the engine, with groups of `4 * n2` points: output `k` of the butterfly of group `g` and tap `j`
goes to `i0 + k*n2` after the level shift, where the butterfly read `i0`, `i0 + n2`, `i0 + 2*n2`, `i0 + 3*n2`; a level over whole
groups saturates exactly when one of its butterflies does. The engine on `N` points is the levels with groups `N, N/4, .., 4`, in
that order, each shifted by its entry of the shift list, and it saturates exactly when one of them does. -/
def Obligations.LevelStoresEachOutputInItsPlace : Prop :=
  (∀ (cfg : Config) (n2 sh g j k : Nat) (zs : List Cplx), j < n2 → k < 4 → (g + 1) * (4 * n2) ≤ zs.length →
    let i0 := g * (4 * n2) + j
    let y := (butterfly cfg (4 * n2) j (point zs i0) (point zs (i0 + n2)) (point zs (i0 + 2 * n2))
      (point zs (i0 + 3 * n2))).val
    (level cfg (4 * n2) sh zs).val.length = zs.length ∧
    point (level cfg (4 * n2) sh zs).val (i0 + k * n2) = ⟨asr (quadOut y k).re sh, asr (quadOut y k).im sh⟩) ∧
  (∀ (cfg : Config) (n2 sh : Nat) (zs : List Cplx), 4 * n2 ∣ zs.length →
    ((level cfg (4 * n2) sh zs).ov = true ↔
      ∃ g j, j < n2 ∧ (g + 1) * (4 * n2) ≤ zs.length ∧
        (butterfly cfg (4 * n2) j (point zs (g * (4 * n2) + j)) (point zs (g * (4 * n2) + j + n2))
          (point zs (g * (4 * n2) + j + 2 * n2)) (point zs (g * (4 * n2) + j + 3 * n2))).ov = true)) ∧
  (∀ (cfg : Config) (sh0 sh1 sh2 sh3 : Nat) (zs : List Cplx), zs.length = 256 →
    let l0 := level cfg 256 sh0 zs
    let l1 := level cfg 64 sh1 l0.val
    let l2 := level cfg 16 sh2 l1.val
    let l3 := level cfg 4 sh3 l2.val
    (fft4 cfg [sh0, sh1, sh2, sh3] zs).val = l3.val ∧
    ((fft4 cfg [sh0, sh1, sh2, sh3] zs).ov = true ↔ l0.ov = true ∨ l1.ov = true ∨ l2.ov = true ∨ l3.ov = true)) ∧
  (∀ (cfg : Config) (sh0 sh1 sh2 : Nat) (zs : List Cplx), zs.length = 64 →
    let l0 := level cfg 64 sh0 zs
    let l1 := level cfg 16 sh1 l0.val
    let l2 := level cfg 4 sh2 l1.val
    (fft4 cfg [sh0, sh1, sh2] zs).val = l2.val ∧
    ((fft4 cfg [sh0, sh1, sh2] zs).ov = true ↔ l0.ov = true ∨ l1.ov = true ∨ l2.ov = true))

/-- R51, R143, R145. The butterfly. At tap 0, on any inputs, its four outputs are the saturating sums of the rule, and it saturates
exactly when one of the sixteen exact sums is out of range. At any other tap, output 0 is that of tap 0 and outputs 1, 2, 3 are
those of tap 0 multiplied by `TW[e]`, `TW[2e]`, `TW[3e]` with `e = (512 / n1) * j`, which can saturate too. With parts small
enough that no sum leaves 32 bits, tap 0 is the exact 4-point transform `a+b+c+d`, `a-jb-c+jd`, `a-b+c-d`, `a+jb-c-jd`. -/
def Obligations.ButterflyIsTheFourPointTransform : Prop :=
  (∀ (cfg : Config) (n1 : Nat) (a b c d : Cplx),
    let sat := clamp 32
    let t0r := a.re.toInt + c.re.toInt
    let t0i := a.im.toInt + c.im.toInt
    let t1r := a.re.toInt - c.re.toInt
    let t1i := a.im.toInt - c.im.toInt
    let t2r := b.re.toInt + d.re.toInt
    let t2i := b.im.toInt + d.im.toInt
    let t3r := b.re.toInt - d.re.toInt
    let t3i := b.im.toInt - d.im.toInt
    let y0r := sat t0r + sat t2r
    let y0i := sat t0i + sat t2i
    let y1r := sat t1r + sat t3i
    let y1i := sat t1i - sat t3r
    let y2r := sat t0r - sat t2r
    let y2i := sat t0i - sat t2i
    let y3r := sat t1r - sat t3i
    let y3i := sat t1i + sat t3r
    let q := butterfly cfg n1 0 a b c d
    q.val.y0 = ⟨BitVec.ofInt 32 (sat y0r), BitVec.ofInt 32 (sat y0i)⟩ ∧
    q.val.y1 = ⟨BitVec.ofInt 32 (sat y1r), BitVec.ofInt 32 (sat y1i)⟩ ∧
    q.val.y2 = ⟨BitVec.ofInt 32 (sat y2r), BitVec.ofInt 32 (sat y2i)⟩ ∧
    q.val.y3 = ⟨BitVec.ofInt 32 (sat y3r), BitVec.ofInt 32 (sat y3i)⟩ ∧
    (q.ov = true ↔ ∃ x ∈ [t0r, t0i, t1r, t1i, t2r, t2i, t3r, t3i, y0r, y0i, y1r, y1i, y2r, y2i, y3r, y3i],
      outOfRange 32 x = true)) ∧
  (∀ (cfg : Config) (n1 j : Nat) (a b c d : Cplx), j ≠ 0 →
    let e := 512 / n1 * j
    let q := butterfly cfg n1 0 a b c d
    let y1 := cmulNeg q.val.y1 (romEntry cfg.tw e)
    let y2 := cmulNeg q.val.y2 (romEntry cfg.tw (2 * e))
    let y3 := cmulNeg q.val.y3 (romEntry cfg.tw (3 * e))
    (butterfly cfg n1 j a b c d).val = ⟨q.val.y0, y1.val, y2.val, y3.val⟩ ∧
    ((butterfly cfg n1 j a b c d).ov = true ↔ q.ov = true ∨ y1.ov = true ∨ y2.ov = true ∨ y3.ov = true)) ∧
  (∀ (cfg : Config) (n1 : Nat) (a b c d : Cplx),
    (∀ z ∈ [a, b, c, d], -(2 ^ 29) ≤ z.re.toInt ∧ z.re.toInt < 2 ^ 29 ∧ -(2 ^ 29) ≤ z.im.toInt ∧ z.im.toInt < 2 ^ 29) →
    let q := butterfly cfg n1 0 a b c d
    q.ov = false ∧
    q.val.y0.re.toInt = a.re.toInt + b.re.toInt + c.re.toInt + d.re.toInt ∧
    q.val.y0.im.toInt = a.im.toInt + b.im.toInt + c.im.toInt + d.im.toInt ∧
    q.val.y1.re.toInt = a.re.toInt + b.im.toInt - c.re.toInt - d.im.toInt ∧
    q.val.y1.im.toInt = a.im.toInt - b.re.toInt - c.im.toInt + d.re.toInt ∧
    q.val.y2.re.toInt = a.re.toInt - b.re.toInt + c.re.toInt - d.re.toInt ∧
    q.val.y2.im.toInt = a.im.toInt - b.im.toInt + c.im.toInt - d.im.toInt ∧
    q.val.y3.re.toInt = a.re.toInt - b.im.toInt - c.re.toInt + d.im.toInt ∧
    q.val.y3.im.toInt = a.im.toInt + b.re.toInt - c.im.toInt - d.re.toInt)

/-- R14, R17, R25. The complex operations: `cadd` and `csub` with the sums that set `OV`, and the two multiplies `cmul_neg` and
`cmul_pos`, each of four rounded products and two saturating sums, any of which can set `OV`. -/
def Obligations.TwiddleMultiplyFollowsItsEquations : Prop :=
  (∀ (y : Cplx) (k : Coef),
    let fm := fun (x : Word) (c : Half) => clamp 32 ((x.toInt * c.toInt + 0x4000) / 2 ^ 15)
    let negRe := fm y.re k.c + fm y.im k.s
    let negIm := fm y.im k.c - fm y.re k.s
    let posRe := fm y.re k.c - fm y.im k.s
    let posIm := fm y.re k.s + fm y.im k.c
    let product := ∃ x ∈ [y.re, y.im], ∃ c ∈ [k.c, k.s], x.toInt = -(2 ^ 31) ∧ c.toInt = -(2 ^ 15)
    (cmulNeg y k).val = ⟨BitVec.ofInt 32 (clamp 32 negRe), BitVec.ofInt 32 (clamp 32 negIm)⟩ ∧
    ((cmulNeg y k).ov = true ↔ outOfRange 32 negRe = true ∨ outOfRange 32 negIm = true ∨ product) ∧
    (cmulPos y k).val = ⟨BitVec.ofInt 32 (clamp 32 posRe), BitVec.ofInt 32 (clamp 32 posIm)⟩ ∧
    ((cmulPos y k).ov = true ↔ outOfRange 32 posRe = true ∨ outOfRange 32 posIm = true ∨ product)) ∧
  (∀ a b : Cplx,
    let sumRe := a.re.toInt + b.re.toInt
    let sumIm := a.im.toInt + b.im.toInt
    let difRe := a.re.toInt - b.re.toInt
    let difIm := a.im.toInt - b.im.toInt
    (cadd a b).val = ⟨BitVec.ofInt 32 (clamp 32 sumRe), BitVec.ofInt 32 (clamp 32 sumIm)⟩ ∧
    ((cadd a b).ov = true ↔ outOfRange 32 sumRe = true ∨ outOfRange 32 sumIm = true) ∧
    (csub a b).val = ⟨BitVec.ofInt 32 (clamp 32 difRe), BitVec.ofInt 32 (clamp 32 difIm)⟩ ∧
    ((csub a b).ov = true ↔ outOfRange 32 difRe = true ∨ outOfRange 32 difIm = true))

/-- R16, R25, R172. The signed scale shift `shs`: the floor for a right shift, clamped and setting `OV` for a left shift. The radix-2
stage: iteration `n` stores the sum of the two shifted points in the low half and their difference in the high half, multiplied
by `TW[n]` unless `n = 0`; it saturates exactly when a shift, a sum, a difference or a product of some iteration does. -/
def Obligations.RadixTwoStageFollowsItsEquations : Prop :=
  (∀ (v : Word) (n : Nat),
    (shs v n).val.toInt = Int.fdiv v.toInt (2 ^ n) ∧ (shs v n).ov = false ∧
    (shs v (-(n : Int))).val.toInt = clamp 32 (v.toInt * 2 ^ n) ∧
    (shs v (-(n : Int))).ov = outOfRange 32 (v.toInt * 2 ^ n)) ∧
  (∀ (cfg : Config) (r : Int) (zs : List Cplx),
    let a := fun n : Nat => (⟨(shs (point zs n).re r).val, (shs (point zs n).im r).val⟩ : Cplx)
    let d := fun n : Nat => csub (a n) (a (n + 256))
    (radix2 cfg r zs).val.1.length = 256 ∧ (radix2 cfg r zs).val.2.length = 256 ∧
    (∀ n, n < 256 →
      point (radix2 cfg r zs).val.1 n = (cadd (a n) (a (n + 256))).val ∧
      point (radix2 cfg r zs).val.2 n = if n = 0 then (d n).val else (cmulNeg (d n).val (romEntry cfg.tw n)).val) ∧
    ((radix2 cfg r zs).ov = true ↔ ∃ n, n < 256 ∧
      ((∃ v ∈ [(point zs n).re, (point zs n).im, (point zs (n + 256)).re, (point zs (n + 256)).im], (shs v r).ov = true) ∨
        (cadd (a n) (a (n + 256))).ov = true ∨ (d n).ov = true ∨
        (n ≠ 0 ∧ (cmulNeg (d n).val (romEntry cfg.tw n)).ov = true))))

/-- R150 (a). An impulse gives a flat spectrum, exactly: with only point 0 of the run nonzero, `FFT4L` leaves every point at
point 0 shifted right by 8, and `FFT4S` with a peak below the threshold shifted right by 6; neither saturates. -/
def Obligations.ImpulseGivesAFlatSpectrum : Prop :=
  (∀ (rs1 : RegNum) (s : State), legalRun (s.reg rs1) 512 →
    (∀ w, 2 ≤ w → w < 512 → s.bufWord ((s.reg rs1).toNat + w) = 0) →
    ∃ t, exec (.fft4l rs1) s = .next t ∧ t.ov = s.ov ∧ ∀ p, p < 256 →
      t.bufWord ((s.reg rs1).toNat + 2 * p) = asr (s.bufWord (s.reg rs1).toNat) 8 ∧
      t.bufWord ((s.reg rs1).toNat + 2 * p + 1) = asr (s.bufWord ((s.reg rs1).toNat + 1)) 8) ∧
  (∀ (rs1 : RegNum) (s : State), legalRun (s.reg rs1) 128 → s.peak.toNat < 2 ^ 28 →
    (∀ w, 2 ≤ w → w < 128 → s.bufWord ((s.reg rs1).toNat + w) = 0) →
    ∃ t, exec (.fft4s rs1) s = .next t ∧ t.ov = s.ov ∧ ∀ p, p < 64 →
      t.bufWord ((s.reg rs1).toNat + 2 * p) = asr (s.bufWord (s.reg rs1).toNat) 6 ∧
      t.bufWord ((s.reg rs1).toNat + 2 * p + 1) = asr (s.bufWord ((s.reg rs1).toNat + 1)) 6)

/-- R150 (b). A constant run collapses to point 0, exactly: when every point is `(u, v)` with `|u|, |v| < 2^29`, `FFT4L`, and `FFT4S`
with a peak below the threshold, leave `(u, v)` at point 0 and zero everywhere else, with `PEAK = mag(u) | mag(v)` and no
saturation. -/
def Obligations.ConstantRunCollapsesToPointZero : Prop :=
  ∀ (rs1 : RegNum) (s : State) (u v : Word),
    -(2 ^ 29) < u.toInt → u.toInt < 2 ^ 29 → -(2 ^ 29) < v.toInt → v.toInt < 2 ^ 29 →
    (legalRun (s.reg rs1) 512 →
      (∀ p, p < 256 → s.bufWord ((s.reg rs1).toNat + 2 * p) = u ∧ s.bufWord ((s.reg rs1).toNat + 2 * p + 1) = v) →
      ∃ t, exec (.fft4l rs1) s = .next t ∧ t.bufWord (s.reg rs1).toNat = u ∧ t.bufWord ((s.reg rs1).toNat + 1) = v ∧
        (∀ w, 2 ≤ w → w < 512 → t.bufWord ((s.reg rs1).toNat + w) = 0) ∧ t.peak = mag u ||| mag v ∧ t.ov = s.ov) ∧
    (legalRun (s.reg rs1) 128 → s.peak.toNat < 2 ^ 28 →
      (∀ p, p < 64 → s.bufWord ((s.reg rs1).toNat + 2 * p) = u ∧ s.bufWord ((s.reg rs1).toNat + 2 * p + 1) = v) →
      ∃ t, exec (.fft4s rs1) s = .next t ∧ t.bufWord (s.reg rs1).toNat = u ∧ t.bufWord ((s.reg rs1).toNat + 1) = v ∧
        (∀ w, 2 ≤ w → w < 128 → t.bufWord ((s.reg rs1).toNat + w) = 0) ∧ t.peak = mag u ||| mag v ∧ t.ov = s.ov)

/-- R170, R172, R177. An impulse through `MIXFFT`: with only point 0 of the run nonzero, every point ends as point 0 shifted by
the normalisation shift `r` (to the left with saturation when `r` is negative) and then right by 8; `EXP` is `r + 8`. -/
def Obligations.MixedImpulseGivesAFlatSpectrum : Prop :=
  ∀ (rs1 : RegNum) (s : State), legalRun (s.reg rs1) 1024 →
    (∀ w, 2 ≤ w → w < 1024 → s.bufWord ((s.reg rs1).toNat + w) = 0) →
    let r : Int := max (4 - clrsb (BitVec.ofNat 32 s.peak.toNat)) (-16)
    let u := shs (s.bufWord (s.reg rs1).toNat) r
    let v := shs (s.bufWord ((s.reg rs1).toNat + 1)) r
    ∃ t, exec (.mixfft rs1) s = .next t ∧ t.ov = (s.ov || u.ov || v.ov) ∧ t.exp = BitVec.ofInt 32 (r + 8) ∧
      t.peak = mag (asr u.val 8) ||| mag (asr v.val 8) ∧ ∀ p, p < 512 →
        t.bufWord ((s.reg rs1).toNat + 2 * p) = asr u.val 8 ∧ t.bufWord ((s.reg rs1).toNat + 2 * p + 1) = asr v.val 8

/-- R18, R148, R171, R181. `mag` of a value is the value, or its one's complement when it is negative. With a true peak the three
normalisation shifts never saturate and leave their headroom: `2^28` for `FFT4S`, `2^27` for `MIXFFT`, `2^30` for `POSTROT`. -/
def Obligations.TruePeakLeavesHeadroom : Prop :=
  (∀ v : Word, ((mag v).toNat : Int) = if 0 ≤ v.toInt then v.toInt else -v.toInt - 1) ∧
  ∀ (peak : BitVec 31) (v : Word), (mag v).toNat ≤ peak.toNat →
    let p : Word := BitVec.ofNat 32 peak.toNat
    let short := asr v (shortPreShift config p)
    let mix := shs v (mixShift config p)
    let rot := shs v (rotShift config p)
    (-(2 ^ 28) ≤ short.toInt ∧ short.toInt < 2 ^ 28) ∧
    (mix.ov = false ∧ -(2 ^ 27) ≤ mix.val.toInt ∧ mix.val.toInt < 2 ^ 27) ∧
    (rot.ov = false ∧ -(2 ^ 30) ≤ rot.val.toInt ∧ rot.val.toInt < 2 ^ 30)

/-- R171. The table of the normalisation shift against `PEAK`. -/
def Obligations.MixedShiftTable : Prop :=
  ∀ peak : BitVec 31,
    let p := peak.toNat
    let r := mixShift config (BitVec.ofNat 32 p)
    (0x40000000 ≤ p → r = 4) ∧ (0x20000000 ≤ p → p ≤ 0x3FFFFFFF → r = 3) ∧ (0x10000000 ≤ p → p ≤ 0x1FFFFFFF → r = 2) ∧
    (0x08000000 ≤ p → p ≤ 0x0FFFFFFF → r = 1) ∧ (0x04000000 ≤ p → p ≤ 0x07FFFFFF → r = 0) ∧
    (∀ c : Nat, 5 ≤ c → c ≤ 19 → 2 ^ (30 - c) ≤ p → p ≤ 2 ^ (31 - c) - 1 → r = 4 - (c : Int)) ∧ (p ≤ 0x7FF → r = -16)

/-- R50, R51, R52, R54. The ROM tables have their lengths, their check sums and the thirteen spot values. No butterfly of the engine
depends on an entry beyond `TW[378]`, no radix-2 stage on one beyond `TW[255]`. -/
def Obligations.RomTablesPassTheirChecks : Prop :=
  config.tw.length = 384 ∧ config.rot.length = 512 ∧
  (config.tw.map fun e => e.c.toInt).sum = -2653763 ∧ (config.tw.map fun e => e.s.toInt).sum = 2686529 ∧
  (config.tw.map fun e => e.c.toNat * 2 ^ 16 + e.s.toNat).sum % 2 ^ 32 = 0x8264FE41 ∧
  (config.rot.map fun e => e.c.toInt).sum = -1 ∧ (config.rot.map fun e => e.s.toInt).sum = -1 ∧
  (config.rot.map fun e => e.c.toNat * 2 ^ 16 + e.s.toNat).sum % 2 ^ 32 = 0x00FEFFFF ∧
  ([0, 1, 64, 128, 192, 256, 383].map fun i => ((romEntry config.tw i).c.toInt, (romEntry config.tw i).s.toInt)) =
    [(32767, 0), (32766, 402), (23170, 23170), (0, 32767), (-23170, 23170), (-32768, 0), (-402, -32766)] ∧
  ([0, 1, 128, 256, 384, 511].map fun i => ((romEntry config.rot i).c.toInt, (romEntry config.rot i).s.toInt)) =
    [(32767, 50), (32765, 452), (-50, 32767), (-32768, -50), (50, -32768), (32766, -352)] ∧
  (∀ (cfg : Config) (tw : List Coef), (∀ i, i ≤ 378 → romEntry tw i = romEntry cfg.tw i) →
    ∀ n1 ∈ [256, 64, 16, 4], ∀ j, j < n1 / 4 → ∀ a b c d : Cplx,
      butterfly { cfg with tw := tw } n1 j a b c d = butterfly cfg n1 j a b c d) ∧
  (∀ (cfg : Config) (tw : List Coef), (∀ i, i ≤ 255 → romEntry tw i = romEntry cfg.tw i) →
    ∀ (r : Int) (zs : List Cplx), radix2 { cfg with tw := tw } r zs = radix2 cfg r zs)
end

