-- ==== Sys2Proof/Laws/Encoding.lean ====
section
/-! SUPPORT. Cutting the fields of an encoded word gives the fields it was made of, and a word is made of its fields. -/

namespace Sys2Proof

/-- R82: `w = op * 2^26 + rd * 2^23 + rs1 * 2^20 + rs2 * 2^17 + z * 2^16 + imm`, with `z = 0`. -/
theorem commandWord_toNat (op : BitVec 6) (rd rs1 rs2 : RegNum) (imm : Half) :
    (commandWord op rd rs1 rs2 imm).toNat =
      op.toNat * 2 ^ 26 + rd.val * 2 ^ 23 + rs1.val * 2 ^ 20 + rs2.val * 2 ^ 17 + imm.toNat := by
  have h1 := rd.isLt
  have h2 := rs1.isLt
  have h3 := rs2.isLt
  have h4 := imm.isLt
  simp only [commandWord, BitVec.toNat_append, BitVec.toNat_ofFin]
  rw [← Nat.shiftLeft_add_eq_or_of_lt (by omega), ← Nat.shiftLeft_add_eq_or_of_lt (by decide),
    ← Nat.shiftLeft_add_eq_or_of_lt (by omega), ← Nat.shiftLeft_add_eq_or_of_lt (by omega),
    ← Nat.shiftLeft_add_eq_or_of_lt (by omega)]
  simp only [Nat.shiftLeft_eq, BitVec.toNat_ofNat]
  omega

theorem fieldOp_commandWord (op : BitVec 6) (rd rs1 rs2 : RegNum) (imm : Half) :
    fieldOp (commandWord op rd rs1 rs2 imm) = op := by
  apply BitVec.eq_of_toNat_eq
  rw [fieldOp, BitVec.extractLsb'_toNat, commandWord_toNat, Nat.shiftRight_eq_div_pow]
  have := op.isLt
  omega

theorem fieldRd_commandWord (op : BitVec 6) (rd rs1 rs2 : RegNum) (imm : Half) :
    fieldRd (commandWord op rd rs1 rs2 imm) = rd := by
  apply Fin.ext
  rw [fieldRd, BitVec.val_toFin, BitVec.extractLsb'_toNat, commandWord_toNat, Nat.shiftRight_eq_div_pow]
  omega

theorem fieldRs1_commandWord (op : BitVec 6) (rd rs1 rs2 : RegNum) (imm : Half) :
    fieldRs1 (commandWord op rd rs1 rs2 imm) = rs1 := by
  apply Fin.ext
  rw [fieldRs1, BitVec.val_toFin, BitVec.extractLsb'_toNat, commandWord_toNat, Nat.shiftRight_eq_div_pow]
  omega

theorem fieldRs2_commandWord (op : BitVec 6) (rd rs1 rs2 : RegNum) (imm : Half) :
    fieldRs2 (commandWord op rd rs1 rs2 imm) = rs2 := by
  apply Fin.ext
  rw [fieldRs2, BitVec.val_toFin, BitVec.extractLsb'_toNat, commandWord_toNat, Nat.shiftRight_eq_div_pow]
  omega

theorem fieldZ_commandWord (op : BitVec 6) (rd rs1 rs2 : RegNum) (imm : Half) :
    fieldZ (commandWord op rd rs1 rs2 imm) = 0 := by
  apply BitVec.eq_of_toNat_eq
  rw [fieldZ, BitVec.extractLsb'_toNat, commandWord_toNat, Nat.shiftRight_eq_div_pow]
  simp only [BitVec.ofNat_eq_ofNat, BitVec.toNat_ofNat]
  omega

theorem fieldImm_commandWord (op : BitVec 6) (rd rs1 rs2 : RegNum) (imm : Half) :
    fieldImm (commandWord op rd rs1 rs2 imm) = imm := by
  apply BitVec.eq_of_toNat_eq
  rw [fieldImm, BitVec.extractLsb'_toNat, commandWord_toNat, Nat.shiftRight_eq_div_pow]
  omega

/-- R82: a word whose `z` bit is 0 is the word of its fields. -/
theorem commandWord_fields {w : Word} (h : fieldZ w = 0) :
    commandWord (fieldOp w) (fieldRd w) (fieldRs1 w) (fieldRs2 w) (fieldImm w) = w := by
  apply BitVec.eq_of_toNat_eq
  have hz := congrArg BitVec.toNat h
  rw [commandWord_toNat]
  simp only [fieldOp, fieldRd, fieldRs1, fieldRs2, fieldImm, fieldZ, BitVec.val_toFin, BitVec.extractLsb'_toNat,
    Nat.shiftRight_eq_div_pow, BitVec.ofNat_eq_ofNat, BitVec.toNat_ofNat] at hz ⊢
  omega

end Sys2Proof
end

