-- ==== Sys2Proof/Laws/State.lean ====
section
/-! SUPPORT. One lemma for each field under each update of the state, so that no proof unfolds a record update, and what a
register or a buffer word reads as under the updates that do not touch it. -/

namespace Sys2Proof.Machine

@[simp] theorem State.setReg_regs (s : State) (i : RegNum) (v : Word) : (s.setReg i v).regs = s.regs.set i.val v i.isLt := rfl
@[simp] theorem State.setReg_ov (s : State) (i : RegNum) (v : Word) : (s.setReg i v).ov = s.ov := rfl
@[simp] theorem State.setReg_err (s : State) (i : RegNum) (v : Word) : (s.setReg i v).err = s.err := rfl
@[simp] theorem State.setReg_cause (s : State) (i : RegNum) (v : Word) : (s.setReg i v).cause = s.cause := rfl
@[simp] theorem State.setReg_peak (s : State) (i : RegNum) (v : Word) : (s.setReg i v).peak = s.peak := rfl
@[simp] theorem State.setReg_exp (s : State) (i : RegNum) (v : Word) : (s.setReg i v).exp = s.exp := rfl
@[simp] theorem State.setReg_ecmd (s : State) (i : RegNum) (v : Word) : (s.setReg i v).ecmd = s.ecmd := rfl
@[simp] theorem State.setReg_buf (s : State) (i : RegNum) (v : Word) : (s.setReg i v).buf = s.buf := rfl
@[simp] theorem State.setReg_resets (s : State) (i : RegNum) (v : Word) : (s.setReg i v).resets = s.resets := rfl
@[simp] theorem State.setReg_pending (s : State) (i : RegNum) (v : Word) : (s.setReg i v).pending = s.pending := rfl
@[simp] theorem State.setReg_reply (s : State) (i : RegNum) (v : Word) : (s.setReg i v).reply = s.reply := rfl

@[simp] theorem State.orOv_regs (s : State) (b : Bool) : (s.orOv b).regs = s.regs := rfl
@[simp] theorem State.orOv_ov (s : State) (b : Bool) : (s.orOv b).ov = (s.ov || b) := rfl
@[simp] theorem State.orOv_err (s : State) (b : Bool) : (s.orOv b).err = s.err := rfl
@[simp] theorem State.orOv_cause (s : State) (b : Bool) : (s.orOv b).cause = s.cause := rfl
@[simp] theorem State.orOv_peak (s : State) (b : Bool) : (s.orOv b).peak = s.peak := rfl
@[simp] theorem State.orOv_exp (s : State) (b : Bool) : (s.orOv b).exp = s.exp := rfl
@[simp] theorem State.orOv_ecmd (s : State) (b : Bool) : (s.orOv b).ecmd = s.ecmd := rfl
@[simp] theorem State.orOv_buf (s : State) (b : Bool) : (s.orOv b).buf = s.buf := rfl
@[simp] theorem State.orOv_resets (s : State) (b : Bool) : (s.orOv b).resets = s.resets := rfl
@[simp] theorem State.orOv_pending (s : State) (b : Bool) : (s.orOv b).pending = s.pending := rfl
@[simp] theorem State.orOv_reply (s : State) (b : Bool) : (s.orOv b).reply = s.reply := rfl

@[simp] theorem State.setOv_regs (s : State) (b : Bool) : (s.setOv b).regs = s.regs := rfl
@[simp] theorem State.setOv_ov (s : State) (b : Bool) : (s.setOv b).ov = b := rfl
@[simp] theorem State.setOv_err (s : State) (b : Bool) : (s.setOv b).err = s.err := rfl
@[simp] theorem State.setOv_cause (s : State) (b : Bool) : (s.setOv b).cause = s.cause := rfl
@[simp] theorem State.setOv_peak (s : State) (b : Bool) : (s.setOv b).peak = s.peak := rfl
@[simp] theorem State.setOv_exp (s : State) (b : Bool) : (s.setOv b).exp = s.exp := rfl
@[simp] theorem State.setOv_ecmd (s : State) (b : Bool) : (s.setOv b).ecmd = s.ecmd := rfl
@[simp] theorem State.setOv_buf (s : State) (b : Bool) : (s.setOv b).buf = s.buf := rfl
@[simp] theorem State.setOv_resets (s : State) (b : Bool) : (s.setOv b).resets = s.resets := rfl
@[simp] theorem State.setOv_pending (s : State) (b : Bool) : (s.setOv b).pending = s.pending := rfl
@[simp] theorem State.setOv_reply (s : State) (b : Bool) : (s.setOv b).reply = s.reply := rfl

@[simp] theorem State.setPeak_regs (s : State) (p : BitVec 31) : (s.setPeak p).regs = s.regs := rfl
@[simp] theorem State.setPeak_ov (s : State) (p : BitVec 31) : (s.setPeak p).ov = s.ov := rfl
@[simp] theorem State.setPeak_err (s : State) (p : BitVec 31) : (s.setPeak p).err = s.err := rfl
@[simp] theorem State.setPeak_cause (s : State) (p : BitVec 31) : (s.setPeak p).cause = s.cause := rfl
@[simp] theorem State.setPeak_peak (s : State) (p : BitVec 31) : (s.setPeak p).peak = p := rfl
@[simp] theorem State.setPeak_exp (s : State) (p : BitVec 31) : (s.setPeak p).exp = s.exp := rfl
@[simp] theorem State.setPeak_ecmd (s : State) (p : BitVec 31) : (s.setPeak p).ecmd = s.ecmd := rfl
@[simp] theorem State.setPeak_buf (s : State) (p : BitVec 31) : (s.setPeak p).buf = s.buf := rfl
@[simp] theorem State.setPeak_resets (s : State) (p : BitVec 31) : (s.setPeak p).resets = s.resets := rfl
@[simp] theorem State.setPeak_pending (s : State) (p : BitVec 31) : (s.setPeak p).pending = s.pending := rfl
@[simp] theorem State.setPeak_reply (s : State) (p : BitVec 31) : (s.setPeak p).reply = s.reply := rfl

@[simp] theorem State.setExp_regs (s : State) (v : Word) : (s.setExp v).regs = s.regs := rfl
@[simp] theorem State.setExp_ov (s : State) (v : Word) : (s.setExp v).ov = s.ov := rfl
@[simp] theorem State.setExp_err (s : State) (v : Word) : (s.setExp v).err = s.err := rfl
@[simp] theorem State.setExp_cause (s : State) (v : Word) : (s.setExp v).cause = s.cause := rfl
@[simp] theorem State.setExp_peak (s : State) (v : Word) : (s.setExp v).peak = s.peak := rfl
@[simp] theorem State.setExp_exp (s : State) (v : Word) : (s.setExp v).exp = v := rfl
@[simp] theorem State.setExp_ecmd (s : State) (v : Word) : (s.setExp v).ecmd = s.ecmd := rfl
@[simp] theorem State.setExp_buf (s : State) (v : Word) : (s.setExp v).buf = s.buf := rfl
@[simp] theorem State.setExp_resets (s : State) (v : Word) : (s.setExp v).resets = s.resets := rfl
@[simp] theorem State.setExp_pending (s : State) (v : Word) : (s.setExp v).pending = s.pending := rfl
@[simp] theorem State.setExp_reply (s : State) (v : Word) : (s.setExp v).reply = s.reply := rfl

@[simp] theorem State.setBufWord_regs (s : State) (a : Nat) (v : Word) : (s.setBufWord a v).regs = s.regs := rfl
@[simp] theorem State.setBufWord_ov (s : State) (a : Nat) (v : Word) : (s.setBufWord a v).ov = s.ov := rfl
@[simp] theorem State.setBufWord_err (s : State) (a : Nat) (v : Word) : (s.setBufWord a v).err = s.err := rfl
@[simp] theorem State.setBufWord_cause (s : State) (a : Nat) (v : Word) : (s.setBufWord a v).cause = s.cause := rfl
@[simp] theorem State.setBufWord_peak (s : State) (a : Nat) (v : Word) : (s.setBufWord a v).peak = s.peak := rfl
@[simp] theorem State.setBufWord_exp (s : State) (a : Nat) (v : Word) : (s.setBufWord a v).exp = s.exp := rfl
@[simp] theorem State.setBufWord_ecmd (s : State) (a : Nat) (v : Word) : (s.setBufWord a v).ecmd = s.ecmd := rfl
@[simp] theorem State.setBufWord_buf (s : State) (a : Nat) (v : Word) : (s.setBufWord a v).buf = s.buf.write a v := rfl
@[simp] theorem State.setBufWord_resets (s : State) (a : Nat) (v : Word) : (s.setBufWord a v).resets = s.resets := rfl
@[simp] theorem State.setBufWord_pending (s : State) (a : Nat) (v : Word) : (s.setBufWord a v).pending = s.pending := rfl
@[simp] theorem State.setBufWord_reply (s : State) (a : Nat) (v : Word) : (s.setBufWord a v).reply = s.reply := rfl

@[simp] theorem State.setBufRun_regs (s : State) (base : Nat) (vs : List Word) : (s.setBufRun base vs).regs = s.regs := rfl
@[simp] theorem State.setBufRun_ov (s : State) (base : Nat) (vs : List Word) : (s.setBufRun base vs).ov = s.ov := rfl
@[simp] theorem State.setBufRun_err (s : State) (base : Nat) (vs : List Word) : (s.setBufRun base vs).err = s.err := rfl
@[simp] theorem State.setBufRun_cause (s : State) (base : Nat) (vs : List Word) : (s.setBufRun base vs).cause = s.cause := rfl
@[simp] theorem State.setBufRun_peak (s : State) (base : Nat) (vs : List Word) : (s.setBufRun base vs).peak = s.peak := rfl
@[simp] theorem State.setBufRun_exp (s : State) (base : Nat) (vs : List Word) : (s.setBufRun base vs).exp = s.exp := rfl
@[simp] theorem State.setBufRun_ecmd (s : State) (base : Nat) (vs : List Word) : (s.setBufRun base vs).ecmd = s.ecmd := rfl
@[simp] theorem State.setBufRun_buf (s : State) (base : Nat) (vs : List Word) : (s.setBufRun base vs).buf = s.buf.writeRun base vs := rfl
@[simp] theorem State.setBufRun_resets (s : State) (base : Nat) (vs : List Word) : (s.setBufRun base vs).resets = s.resets := rfl
@[simp] theorem State.setBufRun_pending (s : State) (base : Nat) (vs : List Word) : (s.setBufRun base vs).pending = s.pending := rfl
@[simp] theorem State.setBufRun_reply (s : State) (base : Nat) (vs : List Word) : (s.setBufRun base vs).reply = s.reply := rfl

@[simp] theorem State.setPoints_regs (s : State) (base : Nat) (zs : List Cplx) : (s.setPoints base zs).regs = s.regs := rfl
@[simp] theorem State.setPoints_ov (s : State) (base : Nat) (zs : List Cplx) : (s.setPoints base zs).ov = s.ov := rfl
@[simp] theorem State.setPoints_err (s : State) (base : Nat) (zs : List Cplx) : (s.setPoints base zs).err = s.err := rfl
@[simp] theorem State.setPoints_cause (s : State) (base : Nat) (zs : List Cplx) : (s.setPoints base zs).cause = s.cause := rfl
@[simp] theorem State.setPoints_peak (s : State) (base : Nat) (zs : List Cplx) : (s.setPoints base zs).peak = s.peak := rfl
@[simp] theorem State.setPoints_exp (s : State) (base : Nat) (zs : List Cplx) : (s.setPoints base zs).exp = s.exp := rfl
@[simp] theorem State.setPoints_ecmd (s : State) (base : Nat) (zs : List Cplx) : (s.setPoints base zs).ecmd = s.ecmd := rfl
@[simp] theorem State.setPoints_buf (s : State) (base : Nat) (zs : List Cplx) : (s.setPoints base zs).buf = s.buf.writeRun base (pointWords zs) := rfl
@[simp] theorem State.setPoints_resets (s : State) (base : Nat) (zs : List Cplx) : (s.setPoints base zs).resets = s.resets := rfl
@[simp] theorem State.setPoints_pending (s : State) (base : Nat) (zs : List Cplx) : (s.setPoints base zs).pending = s.pending := rfl
@[simp] theorem State.setPoints_reply (s : State) (base : Nat) (zs : List Cplx) : (s.setPoints base zs).reply = s.reply := rfl

@[simp] theorem State.raiseFault_regs (s : State) (c : Cause) (w : Word) : (s.raiseFault c w).regs = s.regs := rfl
@[simp] theorem State.raiseFault_ov (s : State) (c : Cause) (w : Word) : (s.raiseFault c w).ov = s.ov := rfl
@[simp] theorem State.raiseFault_err (s : State) (c : Cause) (w : Word) : (s.raiseFault c w).err = true := rfl
@[simp] theorem State.raiseFault_cause (s : State) (c : Cause) (w : Word) : (s.raiseFault c w).cause = c.code := rfl
@[simp] theorem State.raiseFault_peak (s : State) (c : Cause) (w : Word) : (s.raiseFault c w).peak = s.peak := rfl
@[simp] theorem State.raiseFault_exp (s : State) (c : Cause) (w : Word) : (s.raiseFault c w).exp = s.exp := rfl
@[simp] theorem State.raiseFault_ecmd (s : State) (c : Cause) (w : Word) : (s.raiseFault c w).ecmd = w := rfl
@[simp] theorem State.raiseFault_buf (s : State) (c : Cause) (w : Word) : (s.raiseFault c w).buf = s.buf := rfl
@[simp] theorem State.raiseFault_resets (s : State) (c : Cause) (w : Word) : (s.raiseFault c w).resets = s.resets := rfl
@[simp] theorem State.raiseFault_pending (s : State) (c : Cause) (w : Word) : (s.raiseFault c w).pending = s.pending := rfl
@[simp] theorem State.raiseFault_reply (s : State) (c : Cause) (w : Word) : (s.raiseFault c w).reply = s.reply := rfl

@[simp] theorem State.setSat32_regs (s : State) (rd : RegNum) (x : Int) : (s.setSat32 rd x).regs = s.regs.set rd.val (sat32 x).val rd.isLt := rfl
@[simp] theorem State.setSat32_ov (s : State) (rd : RegNum) (x : Int) : (s.setSat32 rd x).ov = (s.ov || (sat32 x).ov) := rfl
@[simp] theorem State.setSat32_err (s : State) (rd : RegNum) (x : Int) : (s.setSat32 rd x).err = s.err := rfl
@[simp] theorem State.setSat32_cause (s : State) (rd : RegNum) (x : Int) : (s.setSat32 rd x).cause = s.cause := rfl
@[simp] theorem State.setSat32_peak (s : State) (rd : RegNum) (x : Int) : (s.setSat32 rd x).peak = s.peak := rfl
@[simp] theorem State.setSat32_exp (s : State) (rd : RegNum) (x : Int) : (s.setSat32 rd x).exp = s.exp := rfl
@[simp] theorem State.setSat32_ecmd (s : State) (rd : RegNum) (x : Int) : (s.setSat32 rd x).ecmd = s.ecmd := rfl
@[simp] theorem State.setSat32_buf (s : State) (rd : RegNum) (x : Int) : (s.setSat32 rd x).buf = s.buf := rfl
@[simp] theorem State.setSat32_resets (s : State) (rd : RegNum) (x : Int) : (s.setSat32 rd x).resets = s.resets := rfl
@[simp] theorem State.setSat32_pending (s : State) (rd : RegNum) (x : Int) : (s.setSat32 rd x).pending = s.pending := rfl
@[simp] theorem State.setSat32_reply (s : State) (rd : RegNum) (x : Int) : (s.setSat32 rd x).reply = s.reply := rfl

@[simp] theorem State.setSat16_regs (s : State) (rd : RegNum) (x : Int) : (s.setSat16 rd x).regs = s.regs.set rd.val (sext16 (sat16 x).val) rd.isLt := rfl
@[simp] theorem State.setSat16_ov (s : State) (rd : RegNum) (x : Int) : (s.setSat16 rd x).ov = (s.ov || (sat16 x).ov) := rfl
@[simp] theorem State.setSat16_err (s : State) (rd : RegNum) (x : Int) : (s.setSat16 rd x).err = s.err := rfl
@[simp] theorem State.setSat16_cause (s : State) (rd : RegNum) (x : Int) : (s.setSat16 rd x).cause = s.cause := rfl
@[simp] theorem State.setSat16_peak (s : State) (rd : RegNum) (x : Int) : (s.setSat16 rd x).peak = s.peak := rfl
@[simp] theorem State.setSat16_exp (s : State) (rd : RegNum) (x : Int) : (s.setSat16 rd x).exp = s.exp := rfl
@[simp] theorem State.setSat16_ecmd (s : State) (rd : RegNum) (x : Int) : (s.setSat16 rd x).ecmd = s.ecmd := rfl
@[simp] theorem State.setSat16_buf (s : State) (rd : RegNum) (x : Int) : (s.setSat16 rd x).buf = s.buf := rfl
@[simp] theorem State.setSat16_resets (s : State) (rd : RegNum) (x : Int) : (s.setSat16 rd x).resets = s.resets := rfl
@[simp] theorem State.setSat16_pending (s : State) (rd : RegNum) (x : Int) : (s.setSat16 rd x).pending = s.pending := rfl
@[simp] theorem State.setSat16_reply (s : State) (rd : RegNum) (x : Int) : (s.setSat16 rd x).reply = s.reply := rfl

@[simp] theorem State.setReg_bufWord (s : State) (i : RegNum) (v : Word) (k : Nat) : (s.setReg i v).bufWord k = s.bufWord k := rfl
@[simp] theorem State.orOv_reg (s : State) (b : Bool) (j : RegNum) : (s.orOv b).reg j = s.reg j := rfl
@[simp] theorem State.orOv_bufWord (s : State) (b : Bool) (k : Nat) : (s.orOv b).bufWord k = s.bufWord k := rfl
@[simp] theorem State.setOv_reg (s : State) (b : Bool) (j : RegNum) : (s.setOv b).reg j = s.reg j := rfl
@[simp] theorem State.setOv_bufWord (s : State) (b : Bool) (k : Nat) : (s.setOv b).bufWord k = s.bufWord k := rfl
@[simp] theorem State.setPeak_reg (s : State) (p : BitVec 31) (j : RegNum) : (s.setPeak p).reg j = s.reg j := rfl
@[simp] theorem State.setPeak_bufWord (s : State) (p : BitVec 31) (k : Nat) : (s.setPeak p).bufWord k = s.bufWord k := rfl
@[simp] theorem State.setExp_reg (s : State) (v : Word) (j : RegNum) : (s.setExp v).reg j = s.reg j := rfl
@[simp] theorem State.setExp_bufWord (s : State) (v : Word) (k : Nat) : (s.setExp v).bufWord k = s.bufWord k := rfl
@[simp] theorem State.setBufWord_reg (s : State) (a : Nat) (v : Word) (j : RegNum) : (s.setBufWord a v).reg j = s.reg j := rfl
@[simp] theorem State.setBufRun_reg (s : State) (base : Nat) (vs : List Word) (j : RegNum) : (s.setBufRun base vs).reg j = s.reg j := rfl
@[simp] theorem State.setPoints_reg (s : State) (base : Nat) (zs : List Cplx) (j : RegNum) : (s.setPoints base zs).reg j = s.reg j := rfl
@[simp] theorem State.raiseFault_reg (s : State) (c : Cause) (w : Word) (j : RegNum) : (s.raiseFault c w).reg j = s.reg j := rfl
@[simp] theorem State.raiseFault_bufWord (s : State) (c : Cause) (w : Word) (k : Nat) : (s.raiseFault c w).bufWord k = s.bufWord k := rfl
@[simp] theorem State.setSat32_bufWord (s : State) (rd : RegNum) (x : Int) (k : Nat) : (s.setSat32 rd x).bufWord k = s.bufWord k := rfl
@[simp] theorem State.setSat16_bufWord (s : State) (rd : RegNum) (x : Int) (k : Nat) : (s.setSat16 rd x).bufWord k = s.bufWord k := rfl

/-- R11: a general register reads as what was written to it, and the other seven are untouched. -/
theorem State.setReg_reg (s : State) (i j : RegNum) (v : Word) : (s.setReg i v).reg j = if i = j then v else s.reg j := by
  simp [State.reg, State.setReg, Vector.getElem_set, Fin.ext_iff]

@[simp] theorem State.setReg_reg_same (s : State) (i : RegNum) (v : Word) : (s.setReg i v).reg i = v := by
  simp [State.setReg_reg]

/-- What a saturating 32-bit write leaves in each register. -/
theorem State.setSat32_reg (s : State) (rd j : RegNum) (x : Int) :
    (s.setSat32 rd x).reg j = if rd = j then (sat32 x).val else s.reg j := s.setReg_reg rd j _

/-- What a saturating 16-bit write leaves in each register. -/
theorem State.setSat16_reg (s : State) (rd j : RegNum) (x : Int) :
    (s.setSat16 rd x).reg j = if rd = j then sext16 (sat16 x).val else s.reg j := s.setReg_reg rd j _

/-- R39: every general register is 0 after reset. -/
@[simp] theorem State.reset_reg (i : RegNum) : State.reset.reg i = 0 := by
  simp [State.reset, State.reg]

end Sys2Proof.Machine
end

