-- ==== Sys2Proof/Laws/Memory.lean ====
section
/-! SUPPORT. `BUF`: what is read after a write, and every operation on it keeps the canonical form. -/

namespace Sys2Proof.Machine

/-- Reading after a write: the written index gives the value, every other index what it gave before. -/
theorem Memory.lookup_write (m : Memory) (a b : Nat) (v : Word) :
    (m.write a v).lookup b = if b = a then some v else m.lookup b := by
  induction m with
  | nil => simp [Memory.write, Memory.lookup]
  | cons c m ih =>
    obtain ⟨k, u⟩ := c
    simp only [Memory.write]
    split
    · simp only [Memory.lookup]
    · split
      · subst_vars
        simp only [Memory.lookup]
        split <;> rfl
      · simp only [Memory.lookup, ih]
        split
        · split
          · omega
          · rfl
        · rfl

/-- Reading after a run is written: inside the run the run's word, outside it what was there. -/
theorem Memory.lookup_writeRun (vs : List Word) (m : Memory) (base b : Nat) :
    (m.writeRun base vs).lookup b = if base ≤ b then (vs[b - base]?).or (m.lookup b) else m.lookup b := by
  induction vs generalizing m base with
  | nil => simp [Memory.writeRun]
  | cons v vs ih =>
    rw [Memory.writeRun, ih, Memory.lookup_write]
    rcases Nat.lt_trichotomy b base with h | h | h
    · simp [Nat.not_le.2 h, show ¬ base + 1 ≤ b by omega, Nat.ne_of_lt h]
    · subst h
      simp [show ¬ b + 1 ≤ b by omega]
    · obtain ⟨d, rfl⟩ : ∃ d, b = base + 1 + d := ⟨b - base - 1, by omega⟩
      simp [show base ≤ base + 1 + d by omega, show base + 1 + d ≠ base by omega, show base + 1 + d - base = d + 1 by omega]

/-- The canonical form, said of the list: the indices rise strictly and lie below `BUF_WORDS`. -/
theorem Memory.wf_iff (m : Memory) :
    m.wf = true ↔ m.Pairwise (fun c d => c.1 < d.1) ∧ ∀ c ∈ m, c.1 < bufWords := by
  induction m with
  | nil => simp [Memory.wf]
  | cons c m ih =>
    obtain ⟨a, v⟩ := c
    simp only [Memory.wf, Bool.and_eq_true, decide_eq_true_eq, List.all_eq_true, ih, List.pairwise_cons,
      List.forall_mem_cons]
    tauto

/-- The indices that a write lists. -/
theorem Memory.mem_write {m : Memory} {a : Nat} {v : Word} {c : Nat × Word} (h : c ∈ m.write a v) :
    c = (a, v) ∨ c ∈ m := by
  induction m with
  | nil => simpa [Memory.write] using h
  | cons d m ih =>
    obtain ⟨k, u⟩ := d
    simp only [Memory.write] at h
    split at h
    · simpa using h
    · split at h
      · rcases List.mem_cons.1 h with h | h
        · exact .inl h
        · exact .inr (List.mem_cons_of_mem _ h)
      · rcases List.mem_cons.1 h with h | h
        · exact .inr (h ▸ List.mem_cons_self)
        · exact (ih h).imp_right (List.mem_cons_of_mem _)

/-- A write of an index of `BUF` keeps the canonical form. -/
theorem Memory.write_wf {m : Memory} {a : Nat} (v : Word) (hm : m.wf = true) (ha : a < bufWords) :
    (m.write a v).wf = true := by
  rw [Memory.wf_iff] at hm ⊢
  refine ⟨?_, fun c hc => ?_⟩
  · obtain ⟨hp, -⟩ := hm
    induction m with
    | nil => simp [Memory.write]
    | cons d m ih =>
      obtain ⟨k, u⟩ := d
      simp only [Memory.write]
      have hk := List.pairwise_cons.1 hp
      split
      · refine List.pairwise_cons.2 ⟨fun c hc => ?_, hp⟩
        rcases List.mem_cons.1 hc with rfl | hc
        · assumption
        · have := hk.1 c hc
          simp only at this ⊢
          omega
      · split
        · subst_vars
          exact List.pairwise_cons.2 ⟨hk.1, hk.2⟩
        · refine List.pairwise_cons.2 ⟨fun c hc => ?_, ih hk.2⟩
          rcases Memory.mem_write hc with rfl | hc
          · simp only
            omega
          · exact hk.1 c hc
  · rcases Memory.mem_write hc with rfl | hc
    · exact ha
    · exact hm.2 c hc

/-- A write of a run inside `BUF` keeps the canonical form. -/
theorem Memory.writeRun_wf (vs : List Word) {m : Memory} {base : Nat} (hm : m.wf = true)
    (h : base + vs.length ≤ bufWords) : (m.writeRun base vs).wf = true := by
  induction vs generalizing m base with
  | nil => exact hm
  | cons v vs ih =>
    simp only [List.length_cons] at h
    exact ih (Memory.write_wf v hm (by omega)) (by omega)

/-- Reset's memory has the canonical form: nothing is listed (R40). -/
theorem State.reset_buf_wf : State.reset.buf.wf = true := rfl

/-- What a word of `BUF` reads as after a one-word write. -/
theorem State.setBufWord_bufWord (s : State) (a b : Nat) (v : Word) :
    (s.setBufWord a v).bufWord b = if b = a then v else s.bufWord b := by
  simp only [State.bufWord, State.setBufWord, Memory.lookup_write]
  split <;> rfl

/-- What a word of `BUF` reads as after a run is replaced. -/
theorem State.setBufRun_bufWord (s : State) (base b : Nat) (vs : List Word) :
    (s.setBufRun base vs).bufWord b = if base ≤ b then (vs[b - base]?).getD (s.bufWord b) else s.bufWord b := by
  simp only [State.bufWord, State.setBufRun, Memory.lookup_writeRun]
  split
  · cases vs[b - base]? <;> simp
  · rfl

/-- Replacing a run changes no word outside it. -/
theorem State.setBufRun_frame (s : State) {base b : Nat} {vs : List Word} (h : ¬(base ≤ b ∧ b < base + vs.length)) :
    (s.setBufRun base vs).bufWord b = s.bufWord b := by
  rw [State.setBufRun_bufWord]
  split
  · rw [List.getElem?_eq_none (by omega)]
    rfl
  · rfl

/-- Inside a replaced run the run's own word is read. -/
theorem State.setBufRun_inside (s : State) {base k : Nat} {vs : List Word} (h : k < vs.length) :
    (s.setBufRun base vs).bufWord (base + k) = vs[k] := by
  rw [State.setBufRun_bufWord, if_pos (Nat.le_add_right base k), Nat.add_sub_cancel_left, List.getElem?_eq_getElem h]
  rfl

/-- A run is read word by word. -/
@[simp] theorem State.bufRun_length (s : State) (base len : Nat) : (s.bufRun base len).length = len := by
  simp [State.bufRun]

end Sys2Proof.Machine
end

