-- ==== Sys2Proof/Laws/Operands.lean ====
section
/-! SUPPORT. One specification lemma for each shared function on operands: saturation, shifts, the fractional multiply, the
peak and the leading-bit count, and for the checks and shapes that the meanings share. -/

namespace Sys2Proof.Machine

/-- R13: the value of `sat32` is the exact value clamped to the 32-bit range. -/
theorem sat32_toInt (x : Int) : (sat32 x).val.toInt = max (-(2 ^ 31)) (min x (2 ^ 31 - 1)) := by
  unfold sat32
  split
  · have : (0x7FFFFFFF : Word).toInt = 2 ^ 31 - 1 := by decide
    simp only [this]
    omega
  · split
    · have : (0x80000000 : Word).toInt = -(2 ^ 31) := by decide
      simp only [this]
      omega
    · simp only [BitVec.toInt_ofInt]
      rw [Int.bmod_eq_of_le (by omega) (by omega)]
      omega

/-- R13: `sat32` reports overflow exactly when the exact value is out of range. -/
theorem sat32_ov (x : Int) : (sat32 x).ov = decide (x < -(2 ^ 31) ∨ 2 ^ 31 - 1 < x) := by
  unfold sat32
  split
  · simp; omega
  · split <;> simp <;> omega

/-- R13: `sat32` of a value in range is that value, and no overflow. -/
theorem sat32_inRange {x : Int} (h : -(2 ^ 31) ≤ x) (h' : x ≤ 2 ^ 31 - 1) : sat32 x = ⟨BitVec.ofInt 32 x, false⟩ := by
  unfold sat32
  rw [if_neg (by omega), if_neg (by omega)]

/-- A word's own value never saturates. -/
@[simp] theorem sat32_s32 (v : Word) : sat32 (s32 v) = ⟨v, false⟩ := by
  have h := BitVec.le_toInt v
  have h' := BitVec.toInt_lt (x := v)
  simp only [s32]
  rw [sat32_inRange (by omega) (by omega), BitVec.ofInt_toInt]

/-- R13: the value of `sat16` is the exact value clamped to the 16-bit range. -/
theorem sat16_toInt (x : Int) : (sat16 x).val.toInt = max (-(2 ^ 15)) (min x (2 ^ 15 - 1)) := by
  unfold sat16
  split
  · have : (0x7FFF : Half).toInt = 2 ^ 15 - 1 := by decide
    simp only [this]
    omega
  · split
    · have : (0x8000 : Half).toInt = -(2 ^ 15) := by decide
      simp only [this]
      omega
    · simp only [BitVec.toInt_ofInt]
      rw [Int.bmod_eq_of_le (by omega) (by omega)]
      omega

/-- R13: `sat16` reports overflow exactly when the exact value is out of range. -/
theorem sat16_ov (x : Int) : (sat16 x).ov = decide (x < -(2 ^ 15) ∨ 2 ^ 15 - 1 < x) := by
  unfold sat16
  split
  · simp; omega
  · split <;> simp <;> omega

/-- R10: sign extension keeps the value. -/
@[simp] theorem sext16_toInt (h : Half) : (sext16 h).toInt = h.toInt := BitVec.toInt_signExtend_of_le (by decide)

/-- R12: `asr` is the floor of the division by `2^n`. -/
theorem asr_toInt (v : Word) (n : Nat) : (asr v n).toInt = v.toInt / 2 ^ n := by
  simp [asr, BitVec.toInt_sshiftRight, Int.shiftRight_eq_div_pow]

@[simp] theorem s32_zero : s32 0#32 = 0 := rfl

@[simp] theorem sat32_zero : sat32 0 = ⟨0#32, false⟩ := rfl

@[simp] theorem asr_zero (n : Nat) : asr 0#32 n = 0#32 := by simp [asr]

/-- Two right shifts make one. -/
theorem asr_asr (v : Word) (m n : Nat) : asr (asr v m) n = asr v (m + n) := by
  apply BitVec.eq_of_toInt_eq
  rw [asr_toInt, asr_toInt, asr_toInt, Int.ediv_ediv_of_nonneg (by positivity), pow_add]

/-- R14: a product by zero is zero and does not saturate. -/
@[simp] theorem fmul_zero (c : Half) : fmul 0#32 c = ⟨0#32, false⟩ := by
  simp [fmul]

/-- R16: a scale shift of zero is zero and does not saturate. -/
@[simp] theorem shs_zero (r : Int) : shs 0#32 r = ⟨0#32, false⟩ := by
  simp [shs]

/-- R16: a scale shift to the right is `asr`, and never saturates. -/
theorem shs_right (v : Word) (n : Nat) : shs v n = ⟨asr v n, false⟩ := by simp [shs]

/-- R16: a scale shift to the left is the saturated product by the power of two. -/
theorem shs_left (v : Word) (n : Nat) : shs v (-(n : Int)) = sat32 (s32 v * 2 ^ n) := by
  cases n with
  | zero => simp [shs, asr]
  | succ n =>
    unfold shs
    rw [if_neg (by omega), Int.neg_neg, Int.toNat_natCast]

/-- R18: `mag(v)` is `v` for `v >= 0` and `-v - 1` for `v < 0`. -/
theorem mag_toNat (v : Word) : ((mag v).toNat : Int) = if 0 ≤ v.toInt then v.toInt else -v.toInt - 1 := by
  have hs : v.sshiftRight 31 = if v.msb then BitVec.allOnes 32 else 0#32 := by
    apply BitVec.eq_of_toInt_eq
    have h1 := BitVec.le_toInt v
    have h2 := BitVec.toInt_lt (x := v)
    rw [BitVec.toInt_sshiftRight, Int.shiftRight_eq_div_pow]
    cases h : v.msb
    · have := BitVec.toInt_nonneg_of_msb_false h
      simp only [Bool.false_eq_true, if_false, BitVec.toInt_zero]
      omega
    · have := BitVec.toInt_neg_of_msb_true h
      have h3 : (BitVec.allOnes 32).toInt = -1 := by decide
      simp only [if_true, h3]
      omega
  rw [mag, hs]
  cases h : v.msb
  · have h2 : 2 * v.toNat < 2 ^ 32 := BitVec.msb_eq_false_iff_two_mul_lt.1 h
    have h3 : v.toInt = v.toNat := BitVec.toInt_eq_toNat_of_msb h
    simp only [Bool.false_eq_true, if_false, BitVec.xor_zero, BitVec.toNat_setWidth, h3]
    split <;> omega
  · have h2 : 2 ^ 32 ≤ 2 * v.toNat := BitVec.msb_eq_true_iff_two_mul_ge.1 h
    have h3 : v.toInt = (v.toNat : Int) - 2 ^ 32 := by
      rw [BitVec.toInt_eq_msb_cond, h]
      simp
    have h4 := v.isLt
    simp only [if_true, BitVec.xor_allOnes, BitVec.toNat_setWidth, BitVec.toNat_not, h3]
    split <;> omega

/-- R65: the run's checks find no fault exactly when the base is even and the run fits in `BUF`. -/
theorem runFault_eq_none (base : Word) (len : Nat) :
    runFault base len = none ↔ base.getLsbD 0 = false ∧ base.toNat + len ≤ bufWords := by
  unfold runFault
  split
  · simp_all
  · split <;> simp_all

/-- Everything that a command on a run can do: take the fault its base calls for, or perform its effect. -/
theorem withRun_cases {i : Instr} {rs1 : RegNum} {len : Nat} {effect : Nat → State → State} {s t : State}
    (h : withRun i rs1 len effect s = .next t) :
    (∃ c, runFault (s.reg rs1) len = some c ∧ t = s.raiseFault c (encode i)) ∨
      (runFault (s.reg rs1) len = none ∧ t = effect (s.reg rs1).toNat s) := by
  unfold withRun at h
  split at h
  · rename_i c hc
    exact .inl ⟨c, hc, (Host.Outcome.next.inj h).symm⟩
  · rename_i hc
    exact .inr ⟨hc, (Host.Outcome.next.inj h).symm⟩

/-- A command on a run always answers a next state. -/
theorem withRun_next (i : Instr) (rs1 : RegNum) (len : Nat) (effect : Nat → State → State) (s : State) :
    ∃ t, withRun i rs1 len effect s = .next t := by
  unfold withRun faultBy
  split <;> exact ⟨_, rfl⟩

end Sys2Proof.Machine
end

