-- ==== Sys2Proof/Laws/Engine.lean ====
section
/-! SUPPORT. The transforms' shared functions: lengths, what stands at each place, and the frame of writing a run. -/

namespace Sys2Proof.Machine

@[simp] theorem Sat.collect_length {α : Type} (l : List (Sat α)) : (Sat.collect l).val.length = l.length := by
  simp [Sat.collect]

@[simp] theorem State.points_length (s : State) (base n : Nat) : (s.points base n).length = n := by
  simp [State.points]

/-- R35: point `i` of a run. -/
theorem State.points_point (s : State) {base n i : Nat} (h : i < n) :
    point (s.points base n) i = ⟨s.bufWord (base + 2 * i), s.bufWord (base + 2 * i + 1)⟩ := by
  simp [point, State.points, List.getD_eq_getElem?_getD, h]

@[simp] theorem pointWords_length (zs : List Cplx) : (pointWords zs).length = 2 * zs.length := by
  induction zs with
  | nil => rfl
  | cons z zs ih =>
    simp only [pointWords, List.flatMap_cons, List.length_append, List.length_cons, List.length_nil] at ih ⊢
    omega

/-- The words of a list of points, the real part of point `i` at place `2i`. -/
theorem pointWords_re (zs : List Cplx) {i : Nat} (h : i < zs.length) : (pointWords zs)[2 * i]? = some (point zs i).re := by
  induction zs generalizing i with
  | nil => simp at h
  | cons z zs ih =>
    cases i with
    | zero => simp [pointWords, point]
    | succ i =>
      have := ih (i := i) (by simpa using h)
      simpa [pointWords, point, Nat.mul_succ] using this

/-- The words of a list of points, the imaginary part of point `i` at place `2i + 1`. -/
theorem pointWords_im (zs : List Cplx) {i : Nat} (h : i < zs.length) :
    (pointWords zs)[2 * i + 1]? = some (point zs i).im := by
  induction zs generalizing i with
  | nil => simp at h
  | cons z zs ih =>
    cases i with
    | zero => simp [pointWords, point]
    | succ i =>
      have := ih (i := i) (by simpa using h)
      simpa [pointWords, point, Nat.mul_succ] using this

/-- R35: a run of points written and read again, the real parts. -/
theorem State.setPoints_re (s : State) {base i : Nat} {zs : List Cplx} (h : i < zs.length) :
    (s.setPoints base zs).bufWord (base + 2 * i) = (point zs i).re := by
  rw [State.setPoints, State.setBufRun_bufWord, if_pos (by omega), Nat.add_sub_cancel_left, pointWords_re zs h]
  rfl

/-- R35: a run of points written and read again, the imaginary parts. -/
theorem State.setPoints_im (s : State) {base i : Nat} {zs : List Cplx} (h : i < zs.length) :
    (s.setPoints base zs).bufWord (base + 2 * i + 1) = (point zs i).im := by
  rw [State.setPoints, State.setBufRun_bufWord, if_pos (by omega), Nat.add_assoc, Nat.add_sub_cancel_left,
    pointWords_im zs h]
  rfl

/-- Writing a run of points changes no word outside it. -/
theorem State.setPoints_frame (s : State) {base b : Nat} {zs : List Cplx} (h : ¬(base ≤ b ∧ b < base + 2 * zs.length)) :
    (s.setPoints base zs).bufWord b = s.bufWord b :=
  s.setBufRun_frame (by simpa using h)

@[simp] theorem level_length (cfg : Config) (n1 sh : Nat) (zs : List Cplx) :
    (level cfg n1 sh zs).val.length = zs.length := by
  simp [level]

/-- R142: what a level leaves at each place. -/
theorem level_point (cfg : Config) (n1 sh : Nat) (zs : List Cplx) {p : Nat} (h : p < zs.length) :
    point (level cfg n1 sh zs).val p = (levelPoint cfg n1 sh zs p).val := by
  simp [point, level, Sat.collect, List.getD_eq_getElem?_getD, h]

/-- R142: a level saturates exactly when it does at some place. -/
theorem level_ov (cfg : Config) (n1 sh : Nat) (zs : List Cplx) :
    (level cfg n1 sh zs).ov = true ↔ ∃ p < zs.length, (levelPoint cfg n1 sh zs p).ov = true := by
  simp [level, Sat.collect]

@[simp] theorem levels_nil (cfg : Config) (n1 : Nat) (zs : List Cplx) : levels cfg n1 [] zs = ⟨zs, false⟩ := rfl

/-- R141: the first level, then the others on groups of a quarter. -/
@[simp] theorem levels_cons (cfg : Config) (n1 sh : Nat) (sched : List Nat) (zs : List Cplx) :
    levels cfg n1 (sh :: sched) zs =
      ⟨(levels cfg (n1 / 4) sched (level cfg n1 sh zs).val).val,
        (level cfg n1 sh zs).ov || (levels cfg (n1 / 4) sched (level cfg n1 sh zs).val).ov⟩ := rfl

@[simp] theorem levels_length (cfg : Config) (n1 : Nat) (sched : List Nat) (zs : List Cplx) :
    (levels cfg n1 sched zs).val.length = zs.length := by
  induction sched generalizing n1 zs with
  | nil => rfl
  | cons sh sched ih => simp [levels, ih]

@[simp] theorem fft4_length (cfg : Config) (sched : List Nat) (zs : List Cplx) :
    (fft4 cfg sched zs).val.length = zs.length := levels_length ..

/-- The sums of a butterfly whose inputs are all zero but the first are that input four times (R150 (a)). -/
theorem butterflySums_impulse (u : Cplx) : butterflySums u ⟨0#32, 0#32⟩ ⟨0#32, 0#32⟩ ⟨0#32, 0#32⟩ = ⟨⟨u, u, u, u⟩, false⟩ := by
  simp [butterflySums, cadd, csub, csubJ, caddJ]

/-- R150: a product of the zero point is zero and does not saturate. -/
@[simp] theorem cmulNeg_zero (k : Coef) : cmulNeg ⟨0#32, 0#32⟩ k = ⟨⟨0#32, 0#32⟩, false⟩ := by
  simp [cmulNeg]

@[simp] theorem radix2_low_length (cfg : Config) (r : Int) (zs : List Cplx) : (radix2 cfg r zs).val.1.length = nLong := by
  simp [radix2]

@[simp] theorem radix2_high_length (cfg : Config) (r : Int) (zs : List Cplx) : (radix2 cfg r zs).val.2.length = nLong := by
  simp [radix2]

/-- R172: what the radix-2 stage leaves at each place of its two halves. -/
theorem radix2_point (cfg : Config) (r : Int) (zs : List Cplx) {n : Nat} (h : n < nLong) :
    point (radix2 cfg r zs).val.1 n = (radix2Pair cfg r zs n).val.1 ∧
    point (radix2 cfg r zs).val.2 n = (radix2Pair cfg r zs n).val.2 := by
  simp [point, radix2, Sat.collect, List.getD_eq_getElem?_getD, h]

/-- R172: the radix-2 stage saturates exactly when one of its iterations does. -/
theorem radix2_ov (cfg : Config) (r : Int) (zs : List Cplx) :
    (radix2 cfg r zs).ov = true ↔ ∃ n < nLong, (radix2Pair cfg r zs n).ov = true := by
  simp [radix2, Sat.collect]

/-- The interleaved run has both halves' points. -/
@[simp] theorem interleave_length (low high : List Cplx) : (interleave low high).length = nMix := by
  simp only [interleave, List.length_flatMap, List.length_cons, List.length_nil, List.map_const', List.length_range,
    List.sum_replicate]
  rfl

@[simp] theorem mixTransform_length (cfg : Config) (r : Int) (zs : List Cplx) :
    (mixTransform cfg r zs).val.1.length = nMix := interleave_length ..

@[simp] theorem postRotate_length (cfg : Config) (r : Int) (zs : List Cplx) :
    (postRotate cfg r zs).val.length = 2 * nMix := by
  simp [postRotate]

/-- R182: the rotated point of each input place. -/
theorem rotated_point (cfg : Config) (r : Int) (zs : List Cplx) {q : Nat} (h : q < nMix) :
    point (Sat.collect ((List.range nMix).map (rotated cfg r zs))).val q = (rotated cfg r zs q).val := by
  simp [point, Sat.collect, List.getD_eq_getElem?_getD, h]

/-- R184: the word that `POSTROT` leaves at each place of the run. -/
theorem postRotate_word (cfg : Config) (r : Int) (zs : List Cplx) {i : Nat} (h : i < 2 * nMix) :
    (postRotate cfg r zs).val[i]? =
      some (rotatedWord (Sat.collect ((List.range nMix).map (rotated cfg r zs))).val i).val := by
  simp [postRotate, Sat.collect, h]

end Sys2Proof.Machine
end

