-- ==== Sys2Proof/Laws/PerInstr.lean ====
section
/-! SUPPORT. Facts about every command as it is written down, one lemma for each constructor of `Instr`. -/

namespace Sys2Proof.Laws

/-- R84: the command's word, with the used fields masked off, is the pattern of the table's row of its mnemonic. -/
def MatchesTableRow.Statement (i : Instr) : Prop :=
  ∃ row ∈ opcodeTable, row.mnemonic = i.mnemonic ∧ encode i &&& row.mask = row.pattern

/-- A word cut in six, under a mask cut in six. -/
theorem append_and_append {k l m n p q : Nat} (x1 y1 : BitVec k) (x2 y2 : BitVec l) (x3 y3 : BitVec m) (x4 y4 : BitVec n)
    (x5 y5 : BitVec p) (x6 y6 : BitVec q) :
    (x1 ++ x2 ++ x3 ++ x4 ++ x5 ++ x6) &&& (y1 ++ y2 ++ y3 ++ y4 ++ y5 ++ y6) =
      (x1 &&& y1) ++ (x2 &&& y2) ++ (x3 &&& y3) ++ (x4 &&& y4) ++ (x5 &&& y5) ++ (x6 &&& y6) := by
  simp only [BitVec.and_append]

/-- The word of a command, as fields, under a mask, as fields. -/
theorem commandWord_and (op : BitVec 6) (rd rs1 rs2 : RegNum) (imm : Half) (o : BitVec 6) (a b c : BitVec 3) (i : Half) :
    commandWord op rd rs1 rs2 imm &&& (o ++ a ++ b ++ c ++ 1#1 ++ i) =
      (op &&& o) ++ (BitVec.ofFin (w := 3) rd &&& a) ++ (BitVec.ofFin (w := 3) rs1 &&& b) ++
        (BitVec.ofFin (w := 3) rs2 &&& c) ++ 0#1 ++ (imm &&& i) :=
  append_and_append ..

theorem ofFin_and_zero (r : RegNum) : BitVec.ofFin (w := 3) r &&& 0#3 = 0#3 := BitVec.and_zero

theorem half_and_zero (h : Half) : h &&& 0#16 = 0#16 := BitVec.and_zero

theorem MatchesTableRow.nop : MatchesTableRow.Statement .nop := by
  refine ⟨⟨"NOP", 0xFFFFFFFF, 0x00000000⟩, by simp [opcodeTable], rfl, ?_⟩
  rw [show (0xFFFFFFFF : Word) = 63#6 ++ 7#3 ++ 7#3 ++ 7#3 ++ 1#1 ++ 0xFFFF#16 by decide, encode, commandWord_and]
  rfl

theorem MatchesTableRow.li (rd : RegNum) (imm : Half) : MatchesTableRow.Statement (.li rd imm) := by
  refine ⟨⟨"LI", 0xFC7F0000, 0x04000000⟩, by simp [opcodeTable], rfl, ?_⟩
  rw [show (0xFC7F0000 : Word) = 63#6 ++ 0#3 ++ 7#3 ++ 7#3 ++ 1#1 ++ 0#16 by decide, encode, commandWord_and]
  simp only [ofFin_and_zero, half_and_zero]
  rfl

theorem MatchesTableRow.lih (rd : RegNum) (imm : Half) : MatchesTableRow.Statement (.lih rd imm) := by
  refine ⟨⟨"LIH", 0xFC7F0000, 0x08000000⟩, by simp [opcodeTable], rfl, ?_⟩
  rw [show (0xFC7F0000 : Word) = 63#6 ++ 0#3 ++ 7#3 ++ 7#3 ++ 1#1 ++ 0#16 by decide, encode, commandWord_and]
  simp only [ofFin_and_zero, half_and_zero]
  rfl

theorem MatchesTableRow.mfs (rd : RegNum) (imm : Half) : MatchesTableRow.Statement (.mfs rd imm) := by
  refine ⟨⟨"MFS", 0xFC7F0000, 0x0C000000⟩, by simp [opcodeTable], rfl, ?_⟩
  rw [show (0xFC7F0000 : Word) = 63#6 ++ 0#3 ++ 7#3 ++ 7#3 ++ 1#1 ++ 0#16 by decide, encode, commandWord_and]
  simp only [ofFin_and_zero, half_and_zero]
  rfl

theorem MatchesTableRow.mts (imm : Half) (rs1 : RegNum) : MatchesTableRow.Statement (.mts imm rs1) := by
  refine ⟨⟨"MTS", 0xFF8F0000, 0x10000000⟩, by simp [opcodeTable], rfl, ?_⟩
  rw [show (0xFF8F0000 : Word) = 63#6 ++ 7#3 ++ 0#3 ++ 7#3 ++ 1#1 ++ 0#16 by decide, encode, commandWord_and]
  simp only [ofFin_and_zero, half_and_zero]
  rfl

theorem MatchesTableRow.ldw (rd : RegNum) (imm : Half) (rs1 : RegNum) : MatchesTableRow.Statement (.ldw rd imm rs1) := by
  refine ⟨⟨"LDW", 0xFC0F0000, 0x14000000⟩, by simp [opcodeTable], rfl, ?_⟩
  rw [show (0xFC0F0000 : Word) = 63#6 ++ 0#3 ++ 0#3 ++ 7#3 ++ 1#1 ++ 0#16 by decide, encode, commandWord_and]
  simp only [ofFin_and_zero, half_and_zero]
  rfl

theorem MatchesTableRow.stw (rs2 : RegNum) (imm : Half) (rs1 : RegNum) : MatchesTableRow.Statement (.stw rs2 imm rs1) := by
  refine ⟨⟨"STW", 0xFF810000, 0x18000000⟩, by simp [opcodeTable], rfl, ?_⟩
  rw [show (0xFF810000 : Word) = 63#6 ++ 7#3 ++ 0#3 ++ 0#3 ++ 1#1 ++ 0#16 by decide, encode, commandWord_and]
  simp only [ofFin_and_zero, half_and_zero]
  rfl

theorem MatchesTableRow.clrov : MatchesTableRow.Statement .clrov := by
  refine ⟨⟨"CLROV", 0xFFFFFFFF, 0x1C000000⟩, by simp [opcodeTable], rfl, ?_⟩
  rw [show (0xFFFFFFFF : Word) = 63#6 ++ 7#3 ++ 7#3 ++ 7#3 ++ 1#1 ++ 0xFFFF#16 by decide, encode, commandWord_and]
  rfl

theorem MatchesTableRow.norm32 (rd : RegNum) (rs1 : RegNum) : MatchesTableRow.Statement (.norm32 rd rs1) := by
  refine ⟨⟨"NORM32", 0xFC0FFFFF, 0x20000000⟩, by simp [opcodeTable], rfl, ?_⟩
  rw [show (0xFC0FFFFF : Word) = 63#6 ++ 0#3 ++ 0#3 ++ 7#3 ++ 1#1 ++ 0xFFFF#16 by decide, encode, commandWord_and]
  simp only [ofFin_and_zero]
  rfl

theorem MatchesTableRow.norm16 (rd : RegNum) (rs1 : RegNum) : MatchesTableRow.Statement (.norm16 rd rs1) := by
  refine ⟨⟨"NORM16", 0xFC0FFFFF, 0x24000000⟩, by simp [opcodeTable], rfl, ?_⟩
  rw [show (0xFC0FFFFF : Word) = 63#6 ++ 0#3 ++ 0#3 ++ 7#3 ++ 1#1 ++ 0xFFFF#16 by decide, encode, commandWord_and]
  simp only [ofFin_and_zero]
  rfl

theorem MatchesTableRow.add32 (rd : RegNum) (rs1 : RegNum) (rs2 : RegNum) : MatchesTableRow.Statement (.add32 rd rs1 rs2) := by
  refine ⟨⟨"ADD32", 0xFC01FFFF, 0x28000000⟩, by simp [opcodeTable], rfl, ?_⟩
  rw [show (0xFC01FFFF : Word) = 63#6 ++ 0#3 ++ 0#3 ++ 0#3 ++ 1#1 ++ 0xFFFF#16 by decide, encode, commandWord_and]
  simp only [ofFin_and_zero]
  rfl

theorem MatchesTableRow.sub32 (rd : RegNum) (rs1 : RegNum) (rs2 : RegNum) : MatchesTableRow.Statement (.sub32 rd rs1 rs2) := by
  refine ⟨⟨"SUB32", 0xFC01FFFF, 0x2C000000⟩, by simp [opcodeTable], rfl, ?_⟩
  rw [show (0xFC01FFFF : Word) = 63#6 ++ 0#3 ++ 0#3 ++ 0#3 ++ 1#1 ++ 0xFFFF#16 by decide, encode, commandWord_and]
  simp only [ofFin_and_zero]
  rfl

theorem MatchesTableRow.add16 (rd : RegNum) (rs1 : RegNum) (rs2 : RegNum) : MatchesTableRow.Statement (.add16 rd rs1 rs2) := by
  refine ⟨⟨"ADD16", 0xFC01FFFF, 0x30000000⟩, by simp [opcodeTable], rfl, ?_⟩
  rw [show (0xFC01FFFF : Word) = 63#6 ++ 0#3 ++ 0#3 ++ 0#3 ++ 1#1 ++ 0xFFFF#16 by decide, encode, commandWord_and]
  simp only [ofFin_and_zero]
  rfl

theorem MatchesTableRow.sub16 (rd : RegNum) (rs1 : RegNum) (rs2 : RegNum) : MatchesTableRow.Statement (.sub16 rd rs1 rs2) := by
  refine ⟨⟨"SUB16", 0xFC01FFFF, 0x34000000⟩, by simp [opcodeTable], rfl, ?_⟩
  rw [show (0xFC01FFFF : Word) = 63#6 ++ 0#3 ++ 0#3 ++ 0#3 ++ 1#1 ++ 0xFFFF#16 by decide, encode, commandWord_and]
  simp only [ofFin_and_zero]
  rfl

theorem MatchesTableRow.mul16 (rd : RegNum) (rs1 : RegNum) (rs2 : RegNum) : MatchesTableRow.Statement (.mul16 rd rs1 rs2) := by
  refine ⟨⟨"MUL16", 0xFC01FFFF, 0x38000000⟩, by simp [opcodeTable], rfl, ?_⟩
  rw [show (0xFC01FFFF : Word) = 63#6 ++ 0#3 ++ 0#3 ++ 0#3 ++ 1#1 ++ 0xFFFF#16 by decide, encode, commandWord_and]
  simp only [ofFin_and_zero]
  rfl

theorem MatchesTableRow.mac16 (rd : RegNum) (rs1 : RegNum) (rs2 : RegNum) : MatchesTableRow.Statement (.mac16 rd rs1 rs2) := by
  refine ⟨⟨"MAC16", 0xFC01FFFF, 0x3C000000⟩, by simp [opcodeTable], rfl, ?_⟩
  rw [show (0xFC01FFFF : Word) = 63#6 ++ 0#3 ++ 0#3 ++ 0#3 ++ 1#1 ++ 0xFFFF#16 by decide, encode, commandWord_and]
  simp only [ofFin_and_zero]
  rfl

theorem MatchesTableRow.msu16 (rd : RegNum) (rs1 : RegNum) (rs2 : RegNum) : MatchesTableRow.Statement (.msu16 rd rs1 rs2) := by
  refine ⟨⟨"MSU16", 0xFC01FFFF, 0x40000000⟩, by simp [opcodeTable], rfl, ?_⟩
  rw [show (0xFC01FFFF : Word) = 63#6 ++ 0#3 ++ 0#3 ++ 0#3 ++ 1#1 ++ 0xFFFF#16 by decide, encode, commandWord_and]
  simp only [ofFin_and_zero]
  rfl

theorem MatchesTableRow.rnd16 (rd : RegNum) (rs1 : RegNum) : MatchesTableRow.Statement (.rnd16 rd rs1) := by
  refine ⟨⟨"RND16", 0xFC0FFFFF, 0x44000000⟩, by simp [opcodeTable], rfl, ?_⟩
  rw [show (0xFC0FFFFF : Word) = 63#6 ++ 0#3 ++ 0#3 ++ 7#3 ++ 1#1 ++ 0xFFFF#16 by decide, encode, commandWord_and]
  simp only [ofFin_and_zero]
  rfl

theorem MatchesTableRow.mulq (rd : RegNum) (rs1 : RegNum) (rs2 : RegNum) : MatchesTableRow.Statement (.mulq rd rs1 rs2) := by
  refine ⟨⟨"MULQ", 0xFC01FFFF, 0x48000000⟩, by simp [opcodeTable], rfl, ?_⟩
  rw [show (0xFC01FFFF : Word) = 63#6 ++ 0#3 ++ 0#3 ++ 0#3 ++ 1#1 ++ 0xFFFF#16 by decide, encode, commandWord_and]
  simp only [ofFin_and_zero]
  rfl

theorem MatchesTableRow.shl32 (rd : RegNum) (rs1 : RegNum) (rs2 : RegNum) : MatchesTableRow.Statement (.shl32 rd rs1 rs2) := by
  refine ⟨⟨"SHL32", 0xFC01FFFF, 0x4C000000⟩, by simp [opcodeTable], rfl, ?_⟩
  rw [show (0xFC01FFFF : Word) = 63#6 ++ 0#3 ++ 0#3 ++ 0#3 ++ 1#1 ++ 0xFFFF#16 by decide, encode, commandWord_and]
  simp only [ofFin_and_zero]
  rfl

theorem MatchesTableRow.shr32 (rd : RegNum) (rs1 : RegNum) (rs2 : RegNum) : MatchesTableRow.Statement (.shr32 rd rs1 rs2) := by
  refine ⟨⟨"SHR32", 0xFC01FFFF, 0x50000000⟩, by simp [opcodeTable], rfl, ?_⟩
  rw [show (0xFC01FFFF : Word) = 63#6 ++ 0#3 ++ 0#3 ++ 0#3 ++ 1#1 ++ 0xFFFF#16 by decide, encode, commandWord_and]
  simp only [ofFin_and_zero]
  rfl

theorem MatchesTableRow.mov (rd : RegNum) (rs1 : RegNum) : MatchesTableRow.Statement (.mov rd rs1) := by
  refine ⟨⟨"MOV", 0xFC0FFFFF, 0x54000000⟩, by simp [opcodeTable], rfl, ?_⟩
  rw [show (0xFC0FFFFF : Word) = 63#6 ++ 0#3 ++ 0#3 ++ 7#3 ++ 1#1 ++ 0xFFFF#16 by decide, encode, commandWord_and]
  simp only [ofFin_and_zero]
  rfl

theorem MatchesTableRow.fft4l (rs1 : RegNum) : MatchesTableRow.Statement (.fft4l rs1) := by
  refine ⟨⟨"FFT4L", 0xFF8FFFFF, 0x60000000⟩, by simp [opcodeTable], rfl, ?_⟩
  rw [show (0xFF8FFFFF : Word) = 63#6 ++ 7#3 ++ 0#3 ++ 7#3 ++ 1#1 ++ 0xFFFF#16 by decide, encode, commandWord_and]
  simp only [ofFin_and_zero]
  rfl

theorem MatchesTableRow.fft4s (rs1 : RegNum) : MatchesTableRow.Statement (.fft4s rs1) := by
  refine ⟨⟨"FFT4S", 0xFF8FFFFF, 0x64000000⟩, by simp [opcodeTable], rfl, ?_⟩
  rw [show (0xFF8FFFFF : Word) = 63#6 ++ 7#3 ++ 0#3 ++ 7#3 ++ 1#1 ++ 0xFFFF#16 by decide, encode, commandWord_and]
  simp only [ofFin_and_zero]
  rfl

theorem MatchesTableRow.mixfft (rs1 : RegNum) : MatchesTableRow.Statement (.mixfft rs1) := by
  refine ⟨⟨"MIXFFT", 0xFF8FFFFF, 0x68000000⟩, by simp [opcodeTable], rfl, ?_⟩
  rw [show (0xFF8FFFFF : Word) = 63#6 ++ 7#3 ++ 0#3 ++ 7#3 ++ 1#1 ++ 0xFFFF#16 by decide, encode, commandWord_and]
  simp only [ofFin_and_zero]
  rfl

theorem MatchesTableRow.postrot (rs1 : RegNum) : MatchesTableRow.Statement (.postrot rs1) := by
  refine ⟨⟨"POSTROT", 0xFF8FFFFF, 0x6C000000⟩, by simp [opcodeTable], rfl, ?_⟩
  rw [show (0xFF8FFFFF : Word) = 63#6 ++ 7#3 ++ 0#3 ++ 7#3 ++ 1#1 ++ 0xFFFF#16 by decide, encode, commandWord_and]
  simp only [ofFin_and_zero]
  rfl

end Sys2Proof.Laws
end

