-- ==== Sys2Proof/Laws/Step.lean ====
section
/-! SUPPORT. What one step can do, said once. -/

namespace Sys2Proof.Machine

@[simp] theorem State.issue_err (s : State) (rest : List Transaction) : (s.issue rest).err = s.err := rfl
@[simp] theorem State.issue_regs (s : State) (rest : List Transaction) : (s.issue rest).regs = s.regs := rfl
@[simp] theorem State.issue_ov (s : State) (rest : List Transaction) : (s.issue rest).ov = s.ov := rfl
@[simp] theorem State.issue_cause (s : State) (rest : List Transaction) : (s.issue rest).cause = s.cause := rfl
@[simp] theorem State.issue_peak (s : State) (rest : List Transaction) : (s.issue rest).peak = s.peak := rfl
@[simp] theorem State.issue_exp (s : State) (rest : List Transaction) : (s.issue rest).exp = s.exp := rfl
@[simp] theorem State.issue_ecmd (s : State) (rest : List Transaction) : (s.issue rest).ecmd = s.ecmd := rfl
@[simp] theorem State.issue_buf (s : State) (rest : List Transaction) : (s.issue rest).buf = s.buf := rfl
@[simp] theorem State.issue_resets (s : State) (rest : List Transaction) : (s.issue rest).resets = s.resets := rfl
@[simp] theorem State.issue_pending (s : State) (rest : List Transaction) : (s.issue rest).pending = rest := rfl
@[simp] theorem State.issue_reply (s : State) (rest : List Transaction) : (s.issue rest).reply = none := rfl
@[simp] theorem State.issue_reg (s : State) (rest : List Transaction) (i : RegNum) : (s.issue rest).reg i = s.reg i := rfl
@[simp] theorem State.issue_bufWord (s : State) (rest : List Transaction) (a : Nat) :
    (s.issue rest).bufWord a = s.bufWord a := rfl

/-- With nothing issued the step idles. -/
theorem step_idle {s : State} (h : s.pending = []) : step s = .next s := by
  simp [step, hostStep, h]

/-- With a transaction issued the step performs it. -/
theorem step_issue {s : State} {t : Transaction} {rest : List Transaction} (h : s.pending = t :: rest) :
    step s = transact t (s.issue rest) := by
  simp [step, hostStep, h]

/-- Everything that presenting a command word can do (R80). -/
theorem hostCmd_cases {w : Word} {s t : State} (h : hostCmd w s = .next t) :
    (s.err = true ∧ t = s) ∨
      (s.err = false ∧ (∃ e, decode w = .error e) ∧ t = s.raiseFault .illegalCommand w) ∨
      (s.err = false ∧ ∃ i, decode w = .ok i ∧ exec i s = .next t) := by
  unfold hostCmd at h
  split at h
  · rename_i he
    exact .inl ⟨he, (Host.Outcome.next.inj h).symm⟩
  · rename_i he
    have he' : s.err = false := by simpa using he
    split at h
    · rename_i e hd
      exact .inr (.inl ⟨he', ⟨e, hd⟩, (Host.Outcome.next.inj h).symm⟩)
    · rename_i i hd
      exact .inr (.inr ⟨he', i, hd, h⟩)

/-- The command word that the host is given to present is the one it presents next. -/
theorem State.withFetchWord_pending (s : State) (nbits w : Nat) :
    (s.withFetchWord nbits w).pending = .cmd (BitVec.ofNat 32 (w % 2 ^ nbits)) :: s.pending := rfl

end Sys2Proof.Machine
end

