-- ==== Sys2Proof/Tests/Slice0.lean ====
section
/-! SUPPORT. The model's own tests. The expected values come from spec/: the worked examples of the rules and the vectors of
95_test_vectors.md, named beside each test. The witnesses at the end show that the hypotheses of each statement in
Certificates/Slice0/Obligations.lean are met. -/

namespace Sys2Proof.Machine.Tests

/-- The next state of an answer. -/
def next? : Result → Option State
  | .next t => some t
  | _ => none

/-- The reset state with `r0` and `r1`. -/
def regs01 (a b : Word) : State := (State.reset.setReg 0 a).setReg 1 b

/-- What a command leaves in `r2` and `OV`, from `r0`, `r1` and `r2`. -/
def r2ov (i : Instr) (a b : Word) (c : Word := 0) : Option (Word × Bool) :=
  (next? (exec i ((regs01 a b).setReg 2 c))).map fun t => (t.reg 2, t.ov)

/-- The reset state with the host's list of transactions. -/
def issuing (ts : List Transaction) : State := { State.reset with pending := ts }

/-- The reset state with a run of zeros at index 0. -/
def zeroRun (n : Nat) : State := State.reset.setBufRun 0 (List.replicate n 0)

/-! ### Well-formedness: a term that each check refuses -/

theorem test_wellFormed_mfs_refuses : (Instr.mfs 2 4).wellFormed = false := by decide
theorem test_wellFormed_mfs_accepts : (Instr.mfs 2 3).wellFormed = true := by decide
theorem test_wellFormed_mts_refuses : (Instr.mts 3 1).wellFormed = false := by decide
theorem test_wellFormed_mts_accepts : (Instr.mts 2 1).wellFormed = true := by decide

/-! ### Decoding, from the words that the spec writes out (each command's rule, R89, 95 sections 2 and 3) -/

theorem test_decode_moves :
    decode 0x00000000 = .ok .nop ∧ decode 0x1C000000 = .ok .clrov ∧ decode 0x0480FFFE = .ok (.li 1 0xFFFE) ∧
      decode 0x09800000 = .ok (.lih 3 0) ∧ decode 0x57800000 = .ok (.mov 7 0) := by decide

theorem test_decode_system :
    decode 0x0D000002 = .ok (.mfs 2 2) ∧ decode 0x10300001 = .ok (.mts 1 3) ∧ decode 0x16000005 = .ok (.ldw 4 5 0) ∧
      decode 0x1858FFFF = .ok (.stw 4 0xFFFF 5) ∧ decode 0x185A0000 = .ok (.stw 5 0 5) := by decide

theorem test_decode_normalize : decode 0x21100000 = .ok (.norm32 2 1) ∧ decode 0x24000000 = .ok (.norm16 0 0) := by decide

theorem test_decode_arith :
    decode 0x29940000 = .ok (.add32 3 1 2) ∧ decode 0x2C020000 = .ok (.sub32 0 0 1) ∧
      decode 0x31020000 = .ok (.add16 2 0 1) ∧ decode 0x35020000 = .ok (.sub16 2 0 1) ∧
      decode 0x39020000 = .ok (.mul16 2 0 1) ∧ decode 0x3D020000 = .ok (.mac16 2 0 1) ∧
      decode 0x41020000 = .ok (.msu16 2 0 1) ∧ decode 0x44800000 = .ok (.rnd16 1 0) ∧
      decode 0x49020000 = .ok (.mulq 2 0 1) ∧ decode 0x4D020000 = .ok (.shl32 2 0 1) ∧
      decode 0x51020000 = .ok (.shr32 2 0 1) := by decide

theorem test_decode_transforms :
    decode 0x60100000 = .ok (.fft4l 1) ∧ decode 0x64300000 = .ok (.fft4s 3) ∧ decode 0x68100000 = .ok (.mixfft 1) ∧
      decode 0x6C100000 = .ok (.postrot 1) := by decide

/-- 95 section 2.7. -/
theorem test_decode_illegal_opcodes :
    [0x58000000, 0x5C000000, 0x70000000, 0xFC000000, 0xFFFFFFFF].map decode =
      List.replicate 5 (.error .unassignedOpcode) := by decide

/-- 95 section 2.7. -/
theorem test_decode_illegal_fields :
    decode 0x28A70000 = .error .zBitSet ∧
    [0x00000001, 0x00800000, 0x1C000001, 0x28A60001, 0x04900005, 0x10900001, 0x20920000, 0x449E0000, 0x60900000,
      0x19120000, 0x14920000].map decode = List.replicate 11 (.error .unusedFieldNonzero) := by decide +kernel

theorem test_decodeTableWord : decodeTableWord 32 0x28000000 = some (.add32 0 0 0) := by decide

/-! ### The assembler's text (R89) -/

theorem test_text :
    asmText .nop = "NOP" ∧ asmText (.li 1 0xFFFE) = "LI r1, -2" ∧ asmText (.lih 1 0x7FFF) = "LIH r1, 0x7FFF" ∧
      asmText (.mfs 2 2) = "MFS r2, EXP" ∧ asmText (.mts 1 3) = "MTS PEAK, r3" := by decide +kernel

theorem test_text_operands :
    asmText (.ldw 4 5 0) = "LDW r4, 5(r0)" ∧ asmText (.stw 4 0xFFFF 5) = "STW r4, -1(r5)" ∧
      asmText (.norm32 2 1) = "NORM32 r2, r1" ∧ asmText (.add32 3 1 2) = "ADD32 r3, r1, r2" ∧
      asmText (.mixfft 0) = "MIXFFT r0" := by decide +kernel

/-- R90's example. -/
theorem test_li32 : (li32 1 0x7FFFFFFF).map encode = [0x0480FFFF, 0x08807FFF] := by decide

/-- R89: an immediate that does not fit is an error, not a truncation. -/
theorem test_immediates :
    signedImmediate 32768 = none ∧ signedImmediate (-32768) = some 0x8000 ∧ unsignedImmediate 65536 = none ∧
      unsignedImmediate 65535 = some 0xFFFF := by decide

/-! ### Functions (R14, R15, R18, R19 and 95 section 1) -/

theorem test_drev4 : drev4 3 1 = 16 ∧ drev4 3 6 = 36 ∧ drev4 4 1 = 64 ∧ drev4 4 27 = 228 := by decide
theorem test_mag : mag 5 = 5 ∧ mag 0xFFFFFFFB = 4 ∧ mag 0x80000000 = 0x7FFFFFFF ∧ mag 0xFFFFFFFF = 0 := by decide
theorem test_fmul_ties : (fmul 1 0x4000).val = 1 ∧ (fmul 0xFFFFFFFF 0x4000).val = 0 := by decide
/-- R176: the first values of the position map. -/
theorem test_binOf : (List.range 16).map binOf = [0, 1, 128, 129, 256, 257, 384, 385, 32, 33, 160, 161, 288, 289, 416, 417] := by
  decide

/-! ### Normalize (95 section 2.1) -/

theorem test_norm32_positive : r2ov (.norm32 2 0) 0x12345 0 = some (14, false) := by decide
theorem test_norm32_negative : r2ov (.norm32 2 0) 0xBFFFFFFF 0 = some (0, false) := by decide
theorem test_norm16_low_half : r2ov (.norm16 2 0) 0xABCD0001 0 = some (14, false) := by decide
theorem test_norm16_minus_one : r2ov (.norm16 2 0) 0x0000FFFF 0 = some (15, false) := by decide

/-! ### Arithmetic (95 section 2.2) -/

theorem test_add32_source_example : r2ov (.add32 2 0 1) 0x7FFFFFFF 1 = some (0x7FFFFFFF, true) := by decide
theorem test_add32_in_range : r2ov (.add32 2 0 1) 0xC0000000 0xC0000000 = some (0x80000000, false) := by decide
theorem test_sub32_negates_most_negative : r2ov (.sub32 2 0 1) 0 0x80000000 = some (0x7FFFFFFF, true) := by decide
theorem test_sub32_in_range : r2ov (.sub32 2 0 1) 0xFFFFFFFF 0x80000000 = some (0x7FFFFFFF, false) := by decide
theorem test_add16_saturates : r2ov (.add16 2 0 1) 0x8000 0xFFFF = some (0xFFFF8000, true) := by decide
theorem test_add16_ignores_high : r2ov (.add16 2 0 1) 0xFFFF0005 0x12340007 = some (0xC, false) := by decide
theorem test_sub16_saturates : r2ov (.sub16 2 0 1) 0x7FFF 0x8000 = some (0x7FFF, true) := by decide
theorem test_sub16_sign_extends : r2ov (.sub16 2 0 1) 5 7 = some (0xFFFFFFFE, false) := by decide
theorem test_mul16_extreme : r2ov (.mul16 2 0 1) 0x8000 0x8000 = some (0x40000000, false) := by decide
theorem test_mul16_mixed : r2ov (.mul16 2 0 1) 0x64 0xFF9C = some (0xFFFFD8F0, false) := by decide
theorem test_mac16_saturates : r2ov (.mac16 2 0 1) 0x8000 0x8000 0x40000000 = some (0x7FFFFFFF, true) := by decide
theorem test_mac16_small : r2ov (.mac16 2 0 1) 3 0xFFFFFFFC 100 = some (88, false) := by decide
theorem test_msu16_in_range : r2ov (.msu16 2 0 1) 0x8000 0x8000 0xC0000000 = some (0x80000000, false) := by decide
theorem test_msu16_saturates : r2ov (.msu16 2 0 1) 0x7FFF 0xFFFF 0x7FFF8001 = some (0x7FFFFFFF, true) := by decide
theorem test_rnd16_last_in_range : r2ov (.rnd16 2 0) 0x7FFF7FFF 0 = some (0x7FFF, false) := by decide
theorem test_rnd16_negative_tie : r2ov (.rnd16 2 0) 0xFFFF8000 0 = some (0, false) := by decide
theorem test_mulq_saturating_pair : r2ov (.mulq 2 0 1) 0x80000000 0x8000 = some (0x7FFFFFFF, true) := by decide
theorem test_mulq_ignores_high : r2ov (.mulq 2 0 1) 0x12345678 0xFFFF5A82 = some (0x0CDF49F4, false) := by decide
theorem test_shl32_saturates : r2ov (.shl32 2 0 1) 0xFFFEDCBB 0xF = some (0x80000000, true) := by decide
theorem test_shl32_low_five_bits : r2ov (.shl32 2 0 1) 0x12345 0xFFFFFFE4 = some (0x123450, false) := by decide
theorem test_shr32_floor : r2ov (.shr32 2 0 1) 0xFFFFFFFD 1 = some (0xFFFFFFFE, false) := by decide
theorem test_shr32_low_five_bits : r2ov (.shr32 2 0 1) 0x12345678 0x24 = some (0x01234567, false) := by decide

/-! ### Move, special registers, buffer (95 section 2.6) -/

theorem test_nop : (next? (exec .nop (State.reset.setOv true))) = some (State.reset.setOv true) := by decide
theorem test_li : r2ov (.li 2 0x8000) 0 0 = some (0xFFFF8000, false) := by decide
theorem test_lih : r2ov (.lih 2 0) 0 0 0x1234ABCD = some (0xABCD, false) := by decide
theorem test_mov : r2ov (.mov 2 0) 0xDEADBEEF 0 = some (0xDEADBEEF, false) := by decide
theorem test_clrov : (next? (exec .clrov (State.reset.setOv true))).map State.ov = some false := by decide

/-- The state of the `MFS` rows. -/
def mfsState : State := ((State.reset.setOv true).setPeak 0x12345).setExp 0xFFFFFFF8

theorem test_mfs :
    ([0, 1, 2, 3].map fun n => (next? (exec (.mfs 2 n) mfsState)).map fun t => t.reg 2) =
      [some 1, some 0x12345, some 0xFFFFFFF8, some 0] := by decide
theorem test_mfs_fault :
    (next? (exec (.mfs 2 4) mfsState)).map (fun t => (t.statusWord, t.ecmd)) = some (0x43, 0x0D000004) := by decide
theorem test_mts :
    (next? (exec (.mts 1 3) (State.reset.setReg 3 0xFFFFFFFF))).map State.peakWord = some 0x7FFFFFFF ∧
      (next? (exec (.mts 0 3) (State.reset.setReg 3 0xFFFFFFFF))).map State.statusWord = some 1 := by decide
theorem test_mts_ecmd_fault :
    (next? (exec (.mts 3 3) State.reset)).map (fun t => (t.statusWord, t.ecmd)) = some (0x42, 0x10300003) := by decide
theorem test_ldw_wraps :
    (next? (exec (.ldw 4 1 0) ((State.reset.setReg 0 0xFFFFFFFF).setBufWord 0 77))).map (fun t => t.reg 4) = some 77 := by decide
theorem test_ldw_fault :
    (next? (exec (.ldw 4 1 0) (State.reset.setReg 0 2047))).map (fun t => (t.statusWord, t.ecmd)) =
      some (0x22, 0x16000001) := by decide
theorem test_stw :
    (next? (exec (.stw 4 0xFFFF 5) ((State.reset.setReg 5 16).setReg 4 7))).map State.buf = some [(15, 7)] := by decide
theorem test_stw_fault :
    (next? (exec (.stw 4 0 5) (State.reset.setReg 5 2048))).map (fun t => (t.statusWord, t.buf)) = some (0x22, []) := by decide

/-! ### Transforms (95 sections 1 S6, 2.3 to 2.5, 2.7) -/

/-- T6's butterfly at level 0, tap 1, second output: `A * (c - j*s)` with `TW[2]`. -/
theorem test_butterfly_twiddle :
    (butterfly config 256 1 ⟨0x01000000, 0⟩ ⟨0, 0⟩ ⟨0, 0⟩ ⟨0, 0⟩).val.y1 = ⟨0x00FFEC00, 0xFFF9B800⟩ := by decide

/-- S6 and P3, at base 0. -/
theorem test_fft4s_impulse :
    (next? (exec (.fft4s 0) (((zeroRun 128).setBufWord 0 0x10000).setPeak 0x10000))).map
      (fun t => (t.bufWord 0, t.bufWord 126, t.bufWord 127, t.exp)) = some (0x400, 0x400, 0, 6) := by decide +kernel

/-- T5: position 16 holds bin 1. -/
theorem test_fft4s_single_point :
    (next? (exec (.fft4s 0) (((zeroRun 128).setBufWord 2 0x01000000).setPeak 0x01000000))).map
      (fun t => (t.bufWord 32, t.bufWord 33)) = some (0x0003FB10, 0xFFFF9BA0) := by decide +kernel

/-- R147: `FFT4L` writes `EXP = 8`, and an odd base takes the fault with cause 3. -/
theorem test_fft4l :
    (next? (exec (.fft4l 0) State.reset)).map State.exp = some 8 ∧
      (next? (exec (.fft4l 1) (State.reset.setReg 1 2047))).map State.statusWord = some 0x32 := by decide +kernel

/-- M2's radix-2 stage at `n = 1`, by hand: `2^26 * (32766 - 402 j) / 2^15`. -/
theorem test_radix2_twiddle :
    (radix2Pair config (-2) [⟨0, 0⟩, ⟨0x01000000, 0⟩] 1).val = (⟨0x04000000, 0⟩, ⟨0x03FFF000, 0xFFF37000⟩) := by decide

/-- The shift table's corners in 95 section 2.4. -/
theorem test_mixfft_exponent :
    ([0x7FFFFFFF, 0x3FFFFFFF, 0x04000000, 0x03FFFFFF, 0x800, 0x7FF, 0].map fun p =>
      (next? (exec (.mixfft 0) (State.reset.setPeak p))).map fun t => t.exp.toInt) =
      [some 12, some 11, some 8, some 7, some (-7), some (-8), some (-8)] := by decide +kernel

/-- Q4's rotated point, R187 example 2. -/
theorem test_postrot_rotation :
    (rotated config (-20) [⟨0, 0⟩, ⟨0, 0xFFFFFC18⟩] 1).val = ⟨0x00DCB400, BitVec.ofInt 32 (-1048480000)⟩ := by decide

/-- R187: where the points of bins 0, 1, 128 and 256 go (`q` 0, 1, 2 and 4), each with parts 1 and 2 in turn. -/
theorem test_postrot_places :
    let at1 := fun q => List.replicate q (⟨0, 0⟩ : Cplx) ++ [⟨1, 2⟩]
    (rotatedWord (at1 0) 512).val = 1 ∧ (rotatedWord (at1 0) 511).val = 0xFFFFFFFE ∧
    (rotatedWord (at1 1) 514).val = 1 ∧ (rotatedWord (at1 1) 509).val = 0xFFFFFFFE ∧
    (rotatedWord (at1 2) 768).val = 1 ∧ (rotatedWord (at1 2) 255).val = 0xFFFFFFFE ∧
    (rotatedWord (at1 4) 0).val = 0xFFFFFFFF ∧ (rotatedWord (at1 4) 1023).val = 2 := by decide

/-- 95 section 2.7: the checks at the last legal base and past it, for the four run lengths. -/
theorem test_base_checks :
    ∀ len ∈ [512, 128, 1024], runFault (BitVec.ofNat 32 (2048 - len)) len = none ∧
      runFault (BitVec.ofNat 32 (2048 - len + 2)) len = some .bufferRange ∧
      runFault (BitVec.ofNat 32 (2048 - len + 1)) len = some .oddBase ∧ runFault 0xFFFFFFFE len = some .bufferRange ∧
      runFault 0xFFFFFFFF len = some .oddBase ∧ runFault 0 len = none := by decide

/-! ### The step -/

/-- R217: a fault, a refused command, and recovery by reset. -/
theorem test_worked_fault :
    next? (step (((((issuing [.cmd 0x64100000]).setReg 1 2047).setOv true).setPeak 5).setExp 6)) =
      some { ((((issuing []).setReg 1 2047).setOv true).setPeak 5).setExp 6 with
        err := true
        cause := 3
        ecmd := 0x64100000 } := by decide

/-- R214: while `ERR = 1` a `NOP` is refused and `ECMD` stays. -/
theorem test_refused :
    next? (step ((issuing [.cmd 0]).raiseFault .oddBase 0x64100000)) =
      some ((State.reset).raiseFault .oddBase 0x64100000) := by decide

theorem test_reset_transaction :
    next? (step ((issuing [.reset, .cmd 0]).raiseFault .oddBase 0x64100000)) =
      some { State.reset with resets := 1, pending := [.cmd 0] } := by decide

/-- R60: a host write and the read after it. -/
theorem test_host_buffer :
    ((next? (step (issuing [.writeBuf 5 42, .readBuf 5]))).bind fun t => (next? (step t)).map State.reply) =
      some (some 42) := by decide

/-- The very next step after `withFetchWord` runs the word (95 section 2.6). -/
theorem test_withFetchWord :
    (next? (step (State.reset.withFetchWord 32 0x0480FFFE))).map (fun t => t.reg 1) = some 0xFFFFFFFE := by decide

/-- A transform is run as the first command after reset, its run unspecified (R40, R233). -/
theorem test_withFetchWord_transform :
    (next? (step (State.reset.withFetchWord 32 0x68100000))).map State.exp = some 0xFFFFFFF8 := by decide +kernel

/-! ### Witnesses: the hypotheses of each statement are met together, each clause at an end of its range -/

theorem next_of {r : Result} {t : State} (h : next? r = some t) : r = .next t := by
  cases r <;> simp_all [next?]

/-- The reset state with `r1` at `base` and the run of `n` words there given by `f`. -/
def runOf (base : Nat) (n : Nat) (f : Nat → Word) : State :=
  (State.reset.setReg 1 (BitVec.ofNat 32 base)).setBufRun base ((List.range n).map f)

theorem runOf_bufWord {base n w : Nat} {f : Nat → Word} (h : w < n) : (runOf base n f).bufWord (base + w) = f w := by
  unfold runOf
  rw [State.setBufRun_inside (h := by simpa using h)]
  simp

theorem runOf_reg (base n : Nat) (f : Nat → Word) : (runOf base n f).reg 1 = BitVec.ofNat 32 base := rfl

/-- A point `(u, v)` followed by zeros. -/
def impulse (u v : Word) : Nat → Word
  | 0 => u
  | 1 => v
  | _ => 0

theorem impulse_tail {u v : Word} {w : Nat} (h : 2 ≤ w) : impulse u v w = 0 := by
  obtain ⟨k, rfl⟩ := Nat.exists_eq_add_of_le' h
  rfl

/-- A state whose fault latch is set by an odd base, with the host's transactions. -/
def faulted (ts : List Transaction) : State := (issuing ts).raiseFault .oddBase 0x64100000

theorem witness_EncodeInvertsDecode : decode 0x29940000 = .ok (.add32 3 1 2) := by decide

theorem witness_WordIsCommandOfTheRowItMatches :
    ∃ row ∈ opcodeTable, (0x29940000 : Word) &&& row.mask = row.pattern ∧ row.mnemonic = "ADD32" := by decide

theorem witness_StepRunsTheDecodedCommand :
    (issuing [.cmd 0x29940000]).pending = [.cmd 0x29940000] ∧ (issuing [.cmd 0x29940000]).err = false ∧
      decode 0x29940000 = .ok (.add32 3 1 2) := by decide

theorem witness_IllegalWordTakesFaultOne :
    (issuing [.cmd 0xFFFFFFFF]).pending = [.cmd 0xFFFFFFFF] ∧ (issuing [.cmd 0xFFFFFFFF]).err = false ∧
      decode 0xFFFFFFFF = .error .unassignedOpcode := by decide

theorem witness_FaultedCoreRefusesEveryCommand :
    (faulted [.cmd 0]).pending = [.cmd 0] ∧ (faulted [.cmd 0]).err = true := by decide

theorem witness_IdleCoreHoldsItsState : State.reset.pending = [] := rfl

theorem witness_HostReadsAnswerAndChangeNothing :
    (issuing [.readReg 7]).pending = [.readReg 7] ∧ (issuing [.readSreg .status]).pending = [.readSreg .status] ∧
      (issuing [.readSreg .peak]).pending = [.readSreg .peak] ∧ (issuing [.readSreg .exp]).pending = [.readSreg .exp] ∧
      (issuing [.readSreg .ecmd]).pending = [.readSreg .ecmd] ∧ (issuing [.readBuf 2047]).pending = [.readBuf 2047] := by
  decide

theorem witness_HostWritesReachOneElement :
    (issuing [.writeReg 7 9]).pending = [.writeReg 7 9] ∧
      (issuing [.writeSreg .status 9]).pending = [.writeSreg .status 9] ∧
      (issuing [.writeSreg .peak 9]).pending = [.writeSreg .peak 9] ∧
      (issuing [.writeSreg .exp 9]).pending = [.writeSreg .exp 9] ∧
      (issuing [.writeBuf 2047 9]).pending = [.writeBuf 2047 9] := by decide

theorem witness_ResetClearsEveryRegister : (faulted [.reset]).pending = [.reset] := by decide

theorem witness_StepKeepsTheInvariant :
    Inv (issuing [.cmd 0xFFFFFFFF]) ∧
      step (issuing [.cmd 0xFFFFFFFF]) = .next ((issuing []).raiseFault .illegalCommand 0xFFFFFFFF) :=
  ⟨⟨rfl, fun _ => ⟨rfl, rfl⟩, fun h => by cases h⟩, next_of (by decide)⟩

theorem witness_OnlyResetClearsTheFault :
    (faulted [.writeSreg .status 0]).err = true ∧ (faulted [.writeSreg .status 0]).pending.head? ≠ some .reset ∧
      step (faulted [.writeSreg .status 0]) = .next (faulted []) :=
  ⟨by decide, by decide, next_of (by decide)⟩

theorem witness_OverflowFlagIsSticky :
    ((issuing [.cmd 0x1C000000]).setOv true).ov = true ∧
      step ((issuing [.cmd 0x1C000000]).setOv true) = .next (issuing []) ∧ (issuing []).ov = false :=
  ⟨by decide, next_of (by decide), by decide⟩

theorem witness_CommandFaultIsPrecise :
    exec (.fft4s 1) (State.reset.setReg 1 2047) =
      .next ((State.reset.setReg 1 2047).raiseFault .oddBase 0x64100000) ∧
    exec (.mov 2 1) (State.reset.setReg 1 2047) = .next ((State.reset.setReg 1 2047).setReg 2 2047) :=
  ⟨next_of (by decide), next_of (by decide)⟩

theorem witness_FaultRecordsThePresentedWord :
    (issuing [.cmd 0x0D000004]).pending = [.cmd 0x0D000004] ∧ (issuing [.cmd 0x0D000004]).err = false ∧
      step (issuing [.cmd 0x0D000004]) = .next ((issuing []).raiseFault .badSpecialRegister 0x0D000004) ∧
      ((issuing []).raiseFault .badSpecialRegister 0x0D000004).err = true :=
  ⟨by decide, by decide, next_of (by decide), by decide⟩

theorem witness_FirstFaultIsKeptUntilReset :
    (faulted [.cmd 0xFFFFFFFF, .writeSreg .status 0, .reset]).err = true ∧
      Transaction.reset ∉ (faulted [.cmd 0xFFFFFFFF, .writeSreg .status 0, .reset]).pending.take 2 ∧
      Host.Core.run Sys2Proof.core 2 (faulted [.cmd 0xFFFFFFFF, .writeSreg .status 0, .reset]) =
        .next (faulted [.reset]) := by
  refine ⟨by decide, by decide, rfl⟩

theorem witness_GeneralRegisterFrame :
    exec (.mov 2 1) (State.reset.setReg 1 5) = .next ((State.reset.setReg 1 5).setReg 2 5) ∧
      destination (.mov 2 1) ≠ some 1 :=
  ⟨next_of (by decide), by decide⟩

theorem witness_BufferFrame :
    exec (.stw 4 0xFFFF 5) ((State.reset.setReg 5 16).setReg 4 7) =
      .next (((State.reset.setReg 5 16).setReg 4 7).setBufWord 15 7) ∧
    footprint ((State.reset.setReg 5 16).setReg 4 7) (.stw 4 0xFFFF 5) = (15, 1) ∧
    ¬(15 ≤ 14 ∧ 14 < 15 + 1) ∧ ¬(15 ≤ 16 ∧ 16 < 15 + 1) :=
  ⟨next_of (by decide), by decide, by decide, by decide⟩

theorem witness_SpecialRegisterFrame :
    exec (.mul16 2 0 1) (State.reset.setOv true) = .next (State.reset.setOv true) ∧ mayWriteOv (.mul16 2 0 1) = false ∧
      mayWritePeak (.mul16 2 0 1) = false ∧ mayWriteExp (.mul16 2 0 1) = false :=
  ⟨next_of (by decide), by decide, by decide, by decide⟩

theorem witness_LeadingBitCountClosedForms :
    (0 : Word).toInt = 0 ∧ 0 < (1 : Word).toInt ∧ 0 < (0x7FFFFFFF : Word).toInt ∧ (0xFFFFFFFF : Word).toInt = -1 ∧
      (0xFFFFFFFE : Word).toInt < -1 ∧ (0x80000000 : Word).toInt < -1 ∧
      (0 : Half).toInt = 0 ∧ 0 < (1 : Half).toInt ∧ 0 < (0x7FFF : Half).toInt ∧ (0xFFFF : Half).toInt = -1 ∧
      (0xFFFE : Half).toInt < -1 ∧ (0x8000 : Half).toInt < -1 := by decide

theorem witness_NormaliseThenShiftNeverSaturates :
    (1 : RegNum) ≠ 0 ∧ exec (.norm32 1 0) (regs01 1 0) = .next (regs01 1 30) ∧
      exec (.shl32 2 0 1) (regs01 1 30) = .next ((regs01 1 30).setReg 2 0x40000000) ∧ (regs01 1 0).reg 0 ≠ 0 ∧
      0 ≤ (0x7FFFFFFF : Word).toInt ∧ clrsb (0x00000001 : Word) < 31 ∧
      0 ≤ (0x7FFF : Half).toInt ∧ clrsb (0x0001 : Half) < 15 ∧ (0x0001 : Half) ≠ 0 :=
  ⟨by decide, next_of (by decide), next_of (by decide), by decide, by decide, by decide, by decide, by decide, by decide⟩

theorem witness_BadSpecialRegisterTakesFaultFour : 3 < (4 : Half).toNat ∧ 2 < (3 : Half).toNat ∧ 3 < (0xFFFF : Half).toNat := by
  decide

theorem witness_LoadReadsTheWord :
    (((State.reset.setReg 1 0xFFFFFFFF).reg 1).toNat + (1 : Half).toInt) % 2 ^ 32 = (0 : Nat) ∧
      (((State.reset.setReg 1 2048).reg 1).toNat + (0xFFFF : Half).toInt) % 2 ^ 32 = (2047 : Nat) ∧ 0 < 2048 ∧ 2047 < 2048 := by
  decide

theorem witness_StoreWritesTheWord :
    (((State.reset.setReg 1 0xFFFFFFFF).reg 1).toNat + (1 : Half).toInt) % 2 ^ 32 = (0 : Nat) ∧
      (((State.reset.setReg 1 2048).reg 1).toNat + (0xFFFF : Half).toInt) % 2 ^ 32 = (2047 : Nat) ∧ 0 < 2048 ∧
      2047 < 2048 ∧ (State.reset.setReg 1 2048).buf.wf = true := by decide

theorem witness_IndexOutsideBufTakesFaultTwo :
    (((State.reset.setReg 1 2047).reg 1).toNat + (1 : Half).toInt) % 2 ^ 32 = (2048 : Nat) ∧
      ((State.reset.reg 1).toNat + (0xFFFF : Half).toInt) % 2 ^ 32 = (0xFFFFFFFF : Nat) ∧ 2048 ≤ 2048 ∧
      2048 ≤ 0xFFFFFFFF := by decide

/-- The odd clause at its lowest and highest base; the range clause just past the last legal base of each length. -/
theorem witness_TransformBaseChecks :
    ((State.reset.setReg 1 1).reg 1).toNat % 2 = 1 ∧ ((State.reset.setReg 1 0xFFFFFFFF).reg 1).toNat % 2 = 1 ∧
      [512, 128, 1024, 1024].map (fun len =>
        (((State.reset.setReg 1 (BitVec.ofNat 32 (2050 - len))).reg 1).toNat % 2,
          decide (2048 < ((State.reset.setReg 1 (BitVec.ofNat 32 (2050 - len))).reg 1).toNat + len))) =
        List.replicate 4 (0, true) := by decide

/-- The last legal base of a run of 512 words; `p < 256` at its ends. -/
theorem witness_LongTransformCompletes :
    legalRun ((State.reset.setReg 1 1536).reg 1) 512 ∧ legalRun (State.reset.reg 1) 512 ∧ 0 < 256 ∧ 255 < 256 := by
  unfold legalRun; decide

theorem witness_ShortTransformCompletes :
    legalRun ((State.reset.setReg 1 1920).reg 1) 128 ∧ legalRun (State.reset.reg 1) 128 ∧ 0 < 64 ∧ 63 < 64 := by
  unfold legalRun; decide

theorem witness_MixedTransformCompletes :
    legalRun ((State.reset.setReg 1 1024).reg 1) 1024 ∧ legalRun (State.reset.reg 1) 1024 ∧ 0 < 256 ∧ 255 < 256 := by
  unfold legalRun; decide

/-- The positions 0, 507, 4 and 511 hold the bins 0, 255, 256 and 511, the ends of the two clauses. -/
theorem witness_PostRotationPlacesEveryBin :
    (legalRun ((State.reset.setReg 1 1024).reg 1) 1024 ∧ legalRun (State.reset.reg 1) 1024) ∧
      [0, 507, 4, 511].map (fun q => 2 * drev4 4 (q / 2) + q % 2) = [0, 255, 256, 511] := by
  unfold legalRun; decide +kernel

theorem witness_PositionMapIsItsOwnInverse : (0 < 256 ∧ 255 < 256) ∧ 0 < 512 ∧ 511 < 512 := by decide

/-- The last tap and output of the last group, and the whole run as one group; a run of whole groups; the two lengths of the
engine. -/
theorem witness_LevelStoresEachOutputInItsPlace :
    (15 < 16 ∧ 3 < 4 ∧ (3 + 1) * (4 * 16) ≤ (List.replicate 256 (⟨0, 0⟩ : Cplx)).length) ∧
      (63 < 64 ∧ 0 < 4 ∧ (0 + 1) * (4 * 64) ≤ (List.replicate 256 (⟨0, 0⟩ : Cplx)).length) ∧
      4 * 64 ∣ (List.replicate 256 (⟨0, 0⟩ : Cplx)).length ∧ (List.replicate 256 (⟨0, 0⟩ : Cplx)).length = 256 ∧
      (List.replicate 64 (⟨0, 0⟩ : Cplx)).length = 64 := by
  rw [List.length_replicate, List.length_replicate]; decide

/-- Both ends of the range of a part, `-2^29` and `2^29 - 1`; a tap other than 0. -/
theorem witness_ButterflyIsTheFourPointTransform :
    (1 ≠ 0 ∧ 63 ≠ 0) ∧
    ∀ z ∈ [(⟨0xE0000000, 0x1FFFFFFF⟩ : Cplx), ⟨0x1FFFFFFF, 0xE0000000⟩, ⟨1, 2⟩, ⟨3, 0xFFFFFFFF⟩],
      -(2 ^ 29) ≤ z.re.toInt ∧ z.re.toInt < 2 ^ 29 ∧ -(2 ^ 29) ≤ z.im.toInt ∧ z.im.toInt < 2 ^ 29 := by
  simp only [List.forall_mem_cons, List.not_mem_nil, false_implies, implies_true, and_true]
  decide

theorem witness_RadixTwoStageFollowsItsEquations : 0 < 256 ∧ 255 < 256 := by decide

theorem witness_ImpulseGivesAFlatSpectrum_long :
    legalRun ((runOf 1536 512 (impulse 0x7FFFFFFF 0x80000000)).reg 1) 512 ∧
      ∀ w, 2 ≤ w → w < 512 →
        (runOf 1536 512 (impulse 0x7FFFFFFF 0x80000000)).bufWord
          (((runOf 1536 512 (impulse 0x7FFFFFFF 0x80000000)).reg 1).toNat + w) = 0 := by
  refine ⟨by rw [runOf_reg]; unfold legalRun; decide, fun w h2 h => ?_⟩
  rw [runOf_reg]
  exact (runOf_bufWord h).trans (impulse_tail h2)

theorem witness_ImpulseGivesAFlatSpectrum_short :
    legalRun ((runOf 1920 128 (impulse 5 7)).reg 1) 128 ∧ (runOf 1920 128 (impulse 5 7)).peak.toNat < 2 ^ 28 ∧
      ∀ w, 2 ≤ w → w < 128 →
        (runOf 1920 128 (impulse 5 7)).bufWord (((runOf 1920 128 (impulse 5 7)).reg 1).toNat + w) = 0 := by
  refine ⟨by rw [runOf_reg]; unfold legalRun; decide, by simp [runOf, State.reset], fun w h2 h => ?_⟩
  rw [runOf_reg]
  exact (runOf_bufWord h).trans (impulse_tail h2)

/-- The constant point `(2^29 - 1, -(2^29 - 1))`, the ends of the range. -/
def constantPoint (w : Nat) : Word := if w % 2 = 0 then 0x1FFFFFFF else 0xE0000001

theorem constantPoint_run {base n p : Nat} (hb : base < 2 ^ 32) (h : 2 * p + 1 < n) :
    (runOf base n constantPoint).bufWord (((runOf base n constantPoint).reg 1).toNat + 2 * p) = 0x1FFFFFFF ∧
      (runOf base n constantPoint).bufWord (((runOf base n constantPoint).reg 1).toNat + 2 * p + 1) = 0xE0000001 := by
  rw [runOf_reg, BitVec.toNat_ofNat, Nat.mod_eq_of_lt hb, Nat.add_assoc]
  refine ⟨(runOf_bufWord (by omega)).trans ?_, (runOf_bufWord h).trans ?_⟩ <;> simp [constantPoint]

theorem witness_ConstantRunCollapsesToPointZero_parts :
    -(2 ^ 29) < (0x1FFFFFFF : Word).toInt ∧ (0x1FFFFFFF : Word).toInt < 2 ^ 29 ∧
      -(2 ^ 29) < (0xE0000001 : Word).toInt ∧ (0xE0000001 : Word).toInt < 2 ^ 29 := by decide

theorem witness_ConstantRunCollapsesToPointZero_long :
    legalRun ((runOf 1536 512 constantPoint).reg 1) 512 ∧
      ∀ p, p < 256 →
        (runOf 1536 512 constantPoint).bufWord (((runOf 1536 512 constantPoint).reg 1).toNat + 2 * p) = 0x1FFFFFFF ∧
        (runOf 1536 512 constantPoint).bufWord (((runOf 1536 512 constantPoint).reg 1).toNat + 2 * p + 1) = 0xE0000001 :=
  ⟨by rw [runOf_reg]; unfold legalRun; decide, fun _ h => constantPoint_run (by decide) (by omega)⟩

theorem witness_ConstantRunCollapsesToPointZero_short :
    legalRun ((runOf 1920 128 constantPoint).reg 1) 128 ∧ (runOf 1920 128 constantPoint).peak.toNat < 2 ^ 28 ∧
      ∀ p, p < 64 →
        (runOf 1920 128 constantPoint).bufWord (((runOf 1920 128 constantPoint).reg 1).toNat + 2 * p) = 0x1FFFFFFF ∧
        (runOf 1920 128 constantPoint).bufWord (((runOf 1920 128 constantPoint).reg 1).toNat + 2 * p + 1) = 0xE0000001 :=
  ⟨by rw [runOf_reg]; unfold legalRun; decide, by simp [runOf, State.reset],
    fun _ h => constantPoint_run (by decide) (by omega)⟩

theorem witness_MixedImpulseGivesAFlatSpectrum :
    legalRun ((runOf 1024 1024 (impulse 0x7FFFFFFF 0x80000000)).reg 1) 1024 ∧
      ∀ w, 2 ≤ w → w < 1024 →
        (runOf 1024 1024 (impulse 0x7FFFFFFF 0x80000000)).bufWord
          (((runOf 1024 1024 (impulse 0x7FFFFFFF 0x80000000)).reg 1).toNat + w) = 0 := by
  refine ⟨by rw [runOf_reg]; unfold legalRun; decide, fun w h2 h => ?_⟩
  rw [runOf_reg]
  exact (runOf_bufWord h).trans (impulse_tail h2)

theorem witness_TruePeakLeavesHeadroom :
    (mag 0x80000000).toNat ≤ (0x7FFFFFFF : BitVec 31).toNat ∧ (mag 0xFFFFFFFF).toNat ≤ (0 : BitVec 31).toNat := by decide

/-- Both ends of every row of R171's table. -/
theorem witness_MixedShiftTable :
    [0x7FFFFFFF, 0x40000000, 0x3FFFFFFF, 0x20000000, 0x1FFFFFFF, 0x10000000, 0x0FFFFFFF, 0x08000000, 0x07FFFFFF,
      0x04000000, 0x03FFFFFF, 0x02000000, 0x00000FFF, 0x00000800, 0x7FF, 0].map
        (fun p => mixShift config (BitVec.ofNat 32 p)) =
      [4, 4, 3, 3, 2, 2, 1, 1, 0, 0, -1, -1, -15, -15, -16, -16] := by decide

/-- `TW` cut after the last entry that a butterfly reads, and after the last one that the radix-2 stage reads; the ends of the
taps of the first and of the last level. -/
theorem witness_RomTablesPassTheirChecks :
    (∀ i, i ≤ 378 → romEntry (config.tw.take 379) i = romEntry config.tw i) ∧
      (∀ i, i ≤ 255 → romEntry (config.tw.take 256) i = romEntry config.tw i) ∧
      (256 ∈ [256, 64, 16, 4] ∧ 63 < 256 / 4) ∧ 4 ∈ [256, 64, 16, 4] ∧ 0 < 4 / 4 := by
  refine ⟨fun i h => ?_, fun i h => ?_, by decide, by decide, by decide⟩ <;>
    simp only [romEntry, List.getD_eq_getElem?_getD, List.getElem?_take] <;> rw [if_pos (by omega)]

end Sys2Proof.Machine.Tests
end

section
/-! PROOFS. The family of 00_scope.md: the counts, the multiplies, the scale shifts and the transforms that rest on them. -/

namespace Sys2Proof.Machine

/-! ### The signed range -/

theorem outOfRange_eq_false_iff {w : Nat} {x : Int} :
    outOfRange w x = false ↔ -(2 ^ (w - 1)) ≤ x ∧ x < 2 ^ (w - 1) := by
  simp only [outOfRange, decide_eq_false_iff_not]
  omega

theorem clamp_of_inRange {w : Nat} {x : Int} (h : outOfRange w x = false) : clamp w x = x := by
  rw [outOfRange_eq_false_iff] at h
  unfold clamp
  omega

/-- R13: `sat32` as the clamp and the range of the statements. -/
theorem sat32_eq (x : Int) : sat32 x = ⟨BitVec.ofInt 32 (clamp 32 x), outOfRange 32 x⟩ := by
  have hval : (sat32 x).val = BitVec.ofInt 32 (clamp 32 x) := by
    rw [← BitVec.ofInt_toInt (x := (sat32 x).val), sat32_toInt]
    rfl
  have hov : (sat32 x).ov = outOfRange 32 x := sat32_ov x
  rw [← hval, ← hov]

theorem sat32_val_toInt (x : Int) : (sat32 x).val.toInt = clamp 32 x := sat32_toInt x

/-! ### The leading-bit count (R19, R100) -/

/-- R19: the number whose bits `clrsb` counts: the value with every bit compared to the sign. -/
def signFolded {w : Nat} (v : BitVec w) : Nat := (v ^^^ v.sshiftRight (w - 1)).toNat

theorem clrsb_eq_bitlen {w : Nat} (v : BitVec w) : clrsb v = w - 1 - bitlen (signFolded v) := rfl

theorem sshiftRight_sign {w : Nat} (v : BitVec w) :
    v.sshiftRight (w - 1) = if v.msb then BitVec.allOnes w else 0#w := by
  ext i hi
  have hmsb : v.msb = v[w - 1] := by rw [BitVec.msb_eq_getLsbD_last, BitVec.getLsbD_eq_getElem (by omega)]
  rw [BitVec.getElem_sshiftRight]
  cases i with
  | zero => cases h : v.msb <;> simp [show w - 1 < w by omega, ← hmsb, h]
  | succ i => cases h : v.msb <;> simp [show ¬(w - 1 + (i + 1) < w) by omega]

/-- R18: what `mag` is at 32 bits, at any width. -/
theorem signFolded_eq {w : Nat} (v : BitVec w) :
    (signFolded v : Int) = if 0 ≤ v.toInt then v.toInt else -v.toInt - 1 := by
  have hlt := v.isLt
  unfold signFolded
  rw [sshiftRight_sign]
  cases h : v.msb
  · have : v.toInt = v.toNat := BitVec.toInt_eq_toNat_of_msb h
    simp [this]
  · have hi : v.toInt = (v.toNat : Int) - (2 ^ w : Nat) := by simp [BitVec.toInt_eq_msb_cond, h]
    simp only [if_true, BitVec.xor_allOnes, BitVec.toNat_not, hi]
    omega

theorem bitlen_le_iff {m n : Nat} : bitlen m ≤ n ↔ m < 2 ^ n := by
  unfold bitlen
  split
  · simp_all
  · rw [← Nat.log2_lt (by assumption)]
    omega

theorem signFolded_lt_pow_iff {w n : Nat} (v : BitVec w) :
    signFolded v < 2 ^ n ↔ -(2 ^ n) ≤ v.toInt ∧ v.toInt < 2 ^ n := by
  have h := signFolded_eq v
  zify
  split at h <;> omega

theorem signFolded_lt {w : Nat} (v : BitVec w) : signFolded v < 2 ^ (w - 1) :=
  (signFolded_lt_pow_iff v).2 ⟨BitVec.le_toInt v, BitVec.toInt_lt⟩

/-- R19: the count is the largest number of bits below the sign that the value can do without. -/
theorem le_clrsb_iff {w n : Nat} (v : BitVec w) (hn : n ≤ w - 1) : n ≤ clrsb v ↔ signFolded v < 2 ^ (w - 1 - n) := by
  have hlen : bitlen (signFolded v) ≤ w - 1 := bitlen_le_iff.2 (signFolded_lt v)
  rw [← bitlen_le_iff, clrsb_eq_bitlen]
  omega

theorem clrsb_le {w : Nat} (v : BitVec w) : clrsb v ≤ w - 1 := Nat.sub_le _ _

theorem signFolded_lt_clrsb {w : Nat} (v : BitVec w) : signFolded v < 2 ^ (w - 1 - clrsb v) :=
  (le_clrsb_iff v (clrsb_le v)).1 (Nat.le_refl _)

/-- R100: the value lies in the range of its width less the count. -/
theorem toInt_within_clrsb {w : Nat} (v : BitVec w) :
    -(2 ^ (w - 1 - clrsb v)) ≤ v.toInt ∧ v.toInt < 2 ^ (w - 1 - clrsb v) :=
  (signFolded_lt_pow_iff v).1 (signFolded_lt_clrsb v)

/-! The closed forms of R100: both signs, and the two values without a bit of their own. -/

theorem clrsb_of_signFolded_zero {w : Nat} {v : BitVec w} (h : signFolded v = 0) : clrsb v = w - 1 := by
  simp [clrsb_eq_bitlen, h, bitlen]

theorem clrsb_of_signFolded_pos {w : Nat} {v : BitVec w} (h : 0 < signFolded v) :
    clrsb v = w - 2 - (signFolded v).log2 := by
  rw [clrsb_eq_bitlen, bitlen, if_neg (by omega)]
  omega

theorem signFolded_of_nonneg {w : Nat} {v : BitVec w} (h : 0 ≤ v.toInt) : signFolded v = v.toInt.toNat := by
  have := signFolded_eq v
  rw [if_pos h] at this
  omega

theorem signFolded_of_neg {w : Nat} {v : BitVec w} (h : v.toInt < 0) : signFolded v = (-v.toInt - 1).toNat := by
  have := signFolded_eq v
  rw [if_neg (by omega)] at this
  omega

theorem clrsb_closedForms {w : Nat} (v : BitVec w) :
    (v.toInt = 0 → clrsb v = w - 1) ∧ (0 < v.toInt → clrsb v = w - 2 - v.toInt.toNat.log2) ∧
      (v.toInt = -1 → clrsb v = w - 1) ∧ (v.toInt < -1 → clrsb v = w - 2 - (-v.toInt - 1).toNat.log2) := by
  refine ⟨fun h => ?zero, fun h => ?pos, fun h => ?minusOne, fun h => ?neg⟩
  case zero => exact clrsb_of_signFolded_zero (by rw [signFolded_of_nonneg (by omega)]; omega)
  case pos =>
    have hs := signFolded_of_nonneg (v := v) (by omega)
    rw [clrsb_of_signFolded_pos (by omega), hs]
  case minusOne => exact clrsb_of_signFolded_zero (by rw [signFolded_of_neg (by omega)]; omega)
  case neg =>
    have hs := signFolded_of_neg (v := v) (by omega)
    rw [clrsb_of_signFolded_pos (by omega), hs]

/-- Settles O27: the closed forms of every width, at the two widths of the CORE. -/
theorem leadingBitCountClosedForms : Obligations.LeadingBitCountClosedForms :=
  ⟨fun v => clrsb_closedForms v, fun v => clrsb_closedForms v⟩

/-! ### Shifting left by the count (R103) -/

theorem signFolded_not {w : Nat} (v : BitVec w) : signFolded (~~~v) = signFolded v := by
  rcases Nat.eq_zero_or_pos w with rfl | hw
  · rw [Subsingleton.elim (~~~v) v]
  · unfold signFolded
    rw [sshiftRight_sign, sshiftRight_sign, BitVec.msb_not]
    cases v.msb <;> simp [hw]

/-- R103: a value and its one's complement have the same count. -/
theorem clrsb_not {w : Nat} (v : BitVec w) : clrsb (~~~v) = clrsb v := by
  rw [clrsb_eq_bitlen, signFolded_not, ← clrsb_eq_bitlen]

/-- R13: a product by `2^n` is in range when the value lies in the range of `n` bits less. -/
theorem outOfRange_mul_pow_eq_false_iff {w n : Nat} (x : Int) (hn : n ≤ w - 1) :
    outOfRange w (x * 2 ^ n) = false ↔ -(2 ^ (w - 1 - n)) ≤ x ∧ x < 2 ^ (w - 1 - n) := by
  have hpow : (2 : Int) ^ (w - 1) = 2 ^ (w - 1 - n) * 2 ^ n := by rw [← pow_add, Nat.sub_add_cancel hn]
  have hpos : (0 : Int) < 2 ^ n := by positivity
  rw [outOfRange_eq_false_iff, hpow, ← Int.neg_mul, Int.mul_le_mul_right hpos, Int.mul_lt_mul_right hpos]

/-- R100: the count is the largest shift to the left that stays in range. -/
theorem shift_inRange_iff {w n : Nat} (v : BitVec w) (hn : n ≤ w - 1) :
    outOfRange w (v.toInt * 2 ^ n) = false ↔ n ≤ clrsb v := by
  rw [outOfRange_mul_pow_eq_false_iff _ hn, le_clrsb_iff v hn, signFolded_lt_pow_iff]

theorem shift_by_clrsb_inRange {w : Nat} (v : BitVec w) : outOfRange w (v.toInt * 2 ^ clrsb v) = false :=
  (shift_inRange_iff v (clrsb_le v)).2 (Nat.le_refl _)

/-- R103: one more shift than the count leaves the range, unless the value is 0. -/
theorem shift_beyond_clrsb_outOfRange {w : Nat} {v : BitVec w} (hv : v.toInt ≠ 0) :
    outOfRange w (v.toInt * 2 ^ (clrsb v + 1)) = true := by
  by_contra hin
  rw [Bool.not_eq_true] at hin
  by_cases hn : clrsb v + 1 ≤ w - 1
  · have := (shift_inRange_iff v hn).1 hin
    omega
  · have hc : clrsb v = w - 1 := Nat.le_antisymm (clrsb_le v) (by omega)
    have hone : v.toInt = -1 := by
      have := toInt_within_clrsb v
      simp only [hc, Nat.sub_self, pow_zero] at this
      omega
    rw [hone, hc, outOfRange_eq_false_iff, pow_succ] at hin
    have : (0 : Int) < 2 ^ (w - 1) := by positivity
    omega

/-- R103: normalised, a value other than 0 has the count 0. -/
theorem clrsb_normalised {w : Nat} {v y : BitVec w} (hv : v.toInt ≠ 0) (hy : y.toInt = v.toInt * 2 ^ clrsb v) :
    clrsb y = 0 := by
  by_contra hc
  have hin : outOfRange w (y.toInt * 2 ^ 1) = false :=
    (shift_inRange_iff y (by have := clrsb_le y; omega)).2 (by omega)
  rw [hy, mul_assoc, ← pow_add, shift_beyond_clrsb_outOfRange hv] at hin
  exact absurd hin (by decide)

theorem toInt_ne_zero {w : Nat} {v : BitVec w} (hv : v ≠ 0) : v.toInt ≠ 0 :=
  fun h => hv (BitVec.eq_of_toInt_eq (by simpa using h))

/-- R103, the laws of the count that no command enters, at any width. -/
theorem clrsb_laws {w : Nat} (v : BitVec w) :
    clrsb (~~~v) = clrsb v ∧ (0 ≤ v.toInt → v.toInt < 2 ^ (w - 1 - clrsb v)) ∧
      (clrsb v < w - 1 → outOfRange w (v.toInt * 2 ^ (clrsb v + 1)) = true) := by
  refine ⟨clrsb_not v, fun _ => (toInt_within_clrsb v).2, fun hlt => shift_beyond_clrsb_outOfRange fun h0 => ?_⟩
  have := (clrsb_closedForms v).1 h0
  omega

theorem shiftCount_ofNat {n : Nat} (h : n < 32) : shiftCount (BitVec.ofNat 32 n) = n := by
  simp only [shiftCount, BitVec.extractLsb'_toNat, BitVec.toNat_ofNat, Nat.shiftRight_zero]
  omega

/-- R101, R121: what `NORM32` and then `SHL32` by its result leave. -/
theorem norm32_then_shl32 {ra rn rb : RegNum} {s t u : State} (hne : rn ≠ ra)
    (hnorm : exec (.norm32 rn ra) s = .next t) (hshl : exec (.shl32 rb ra rn) t = .next u) :
    u = t.setSat32 rb ((s.reg ra).toInt * 2 ^ clrsb (s.reg ra)) ∧ t.ov = s.ov := by
  obtain rfl : s.setReg rn (BitVec.ofNat 32 (clrsb (s.reg ra))) = t := Host.Outcome.next.inj hnorm
  have hle := clrsb_le (s.reg ra)
  refine ⟨(Host.Outcome.next.inj hshl).symm.trans ?_, rfl⟩
  rw [State.setReg_reg_same, State.setReg_reg, if_neg hne, shiftCount_ofNat (by omega), s32]

/-- Settles O28: the shift by the count stays in range, so `SHL32` stores the exact product; one more would not. -/
theorem normaliseThenShiftNeverSaturates : Obligations.NormaliseThenShiftNeverSaturates := by
  refine ⟨fun ra rn rb s t u hne hnorm hshl => ?_, fun v => clrsb_laws v, fun v => ?_⟩
  · obtain ⟨rfl, hov⟩ := norm32_then_shl32 hne hnorm hshl
    have hin := shift_by_clrsb_inRange (s.reg ra)
    have hval : ((t.setSat32 rb ((s.reg ra).toInt * 2 ^ clrsb (s.reg ra))).reg rb).toInt =
        (s.reg ra).toInt * 2 ^ clrsb (s.reg ra) := by
      rw [State.setSat32_reg, if_pos rfl, sat32_val_toInt, clamp_of_inRange hin]
    refine ⟨?_, hval, fun hv => clrsb_normalised (toInt_ne_zero hv) hval⟩
    rw [State.setSat32_ov, sat32_eq, hin, hov, Bool.or_false]
  · obtain ⟨hnot, hpeak, hbeyond⟩ := clrsb_laws v
    have hin := shift_by_clrsb_inRange v
    have hrange := outOfRange_eq_false_iff.1 hin
    exact ⟨hnot, hpeak, hin, hbeyond, fun hv =>
      clrsb_normalised (toInt_ne_zero hv) (BitVec.toInt_ofInt_eq_self (by decide) hrange.1 hrange.2)⟩

end Sys2Proof.Machine
end

section
/-! PROOFS. The fractional multiply, the complex arithmetic and the radix-2 stage follow their equations. -/

namespace Sys2Proof.Machine

/-! ### The fractional multiply (R14) -/

theorem commandWord_eq_ofNat (op : BitVec 6) (rd rs1 rs2 : RegNum) (imm : Half) :
    commandWord op rd rs1 rs2 imm = BitVec.ofNat 32
      (op.toNat * 2 ^ 26 + rd.val * 2 ^ 23 + rs1.val * 2 ^ 20 + rs2.val * 2 ^ 17 + imm.toNat) := by
  rw [← commandWord_toNat, BitVec.ofNat_toNat, BitVec.setWidth_eq]

/-- R14: the rounded product is in range for every pair of operands but the most negative two. -/
theorem roundedProduct_inRange {x c : Int} (hx : -(2 ^ 31) ≤ x ∧ x < 2 ^ 31) (hc : -(2 ^ 15) ≤ c ∧ c < 2 ^ 15)
    (hpair : ¬(x = -(2 ^ 31) ∧ c = -(2 ^ 15))) : outOfRange 32 ((x * c + 0x4000) / 2 ^ 15) = false := by
  obtain ⟨hx1, hx2⟩ := hx
  obtain ⟨hc1, hc2⟩ := hc
  have hlo : -(2 ^ 46) ≤ x * c := by nlinarith
  have hhi : x * c ≤ 2 ^ 46 - 2 ^ 15 := by
    rcases Int.lt_or_eq_of_le hx1 with hx | hx
    · nlinarith
    · have : -(2 ^ 15) + 1 ≤ c := by omega
      nlinarith
  rw [outOfRange_eq_false_iff]
  omega

/-- R14: the one pair whose rounded product is out of range. -/
theorem roundedProduct_outOfRange_iff (x : Word) (c : Half) :
    outOfRange 32 ((x.toInt * c.toInt + 0x4000) / 2 ^ 15) = true ↔ x.toInt = -(2 ^ 31) ∧ c.toInt = -(2 ^ 15) := by
  refine ⟨fun hout => ?_, fun ⟨hx, hc⟩ => by rw [hx, hc]; decide⟩
  by_contra hpair
  rw [roundedProduct_inRange ⟨x.le_toInt, x.toInt_lt⟩ ⟨c.le_toInt, c.toInt_lt⟩ hpair] at hout
  exact absurd hout (by decide)

theorem fmul_val_toInt (x : Word) (c : Half) :
    (fmul x c).val.toInt = clamp 32 ((x.toInt * c.toInt + 0x4000) / 2 ^ 15) := sat32_val_toInt _

theorem fmul_ov_iff (x : Word) (c : Half) :
    (fmul x c).ov = true ↔ x.toInt = -(2 ^ 31) ∧ c.toInt = -(2 ^ 15) := by
  rw [← roundedProduct_outOfRange_iff, fmul, sat32_eq]
  rfl

/-- R14: the saturating pair gives the greatest value, every other pair its rounded product. -/
theorem fmul_val_toInt_eq_ite (x : Word) (c : Half) :
    (fmul x c).val.toInt =
      if x.toInt = -(2 ^ 31) ∧ c.toInt = -(2 ^ 15) then 2 ^ 31 - 1 else (x.toInt * c.toInt + 0x4000) / 2 ^ 15 := by
  rw [fmul_val_toInt]
  split
  · next hpair =>
    rw [hpair.1, hpair.2]
    rfl
  · next hpair =>
    exact clamp_of_inRange (roundedProduct_inRange ⟨x.le_toInt, x.toInt_lt⟩ ⟨c.le_toInt, c.toInt_lt⟩ hpair)

/-- Settles O34: `MULQ` is `fmul`, whose one product out of range is that of the most negative operands. -/
theorem fractionalMultiplyRoundsAndSaturatesForOnePair :
    Obligations.FractionalMultiplyRoundsAndSaturatesForOnePair := by
  intro rd rs1 rs2 s x c worst
  have hov : (fmul (s.reg rs1) ((s.reg rs2).setWidth 16)).ov = worst := by
    rw [Bool.eq_iff_iff, fmul_ov_iff, decide_eq_true_eq]
  refine ⟨?word, (fmul (s.reg rs1) ((s.reg rs2).setWidth 16)).val, ?next, ?value⟩
  case word => exact commandWord_eq_ofNat ..
  case next => rw [← hov]; rfl
  case value =>
    rw [fmul_val_toInt_eq_ite]
    simp only [worst, x, c, decide_eq_true_eq]

/-! ### The complex operations (R17) -/

theorem cadd_eq (a b : Cplx) :
    cadd a b = ⟨⟨BitVec.ofInt 32 (clamp 32 (a.re.toInt + b.re.toInt)),
        BitVec.ofInt 32 (clamp 32 (a.im.toInt + b.im.toInt))⟩,
      outOfRange 32 (a.re.toInt + b.re.toInt) || outOfRange 32 (a.im.toInt + b.im.toInt)⟩ := by
  simp only [cadd, sat32_eq, s32]

theorem csub_eq (a b : Cplx) :
    csub a b = ⟨⟨BitVec.ofInt 32 (clamp 32 (a.re.toInt - b.re.toInt)),
        BitVec.ofInt 32 (clamp 32 (a.im.toInt - b.im.toInt))⟩,
      outOfRange 32 (a.re.toInt - b.re.toInt) || outOfRange 32 (a.im.toInt - b.im.toInt)⟩ := by
  simp only [csub, sat32_eq, s32]

/-- R14, R17: one of the four products of a complex multiply saturates when a part of the point and a part of the coefficient
are the one saturating pair. -/
theorem exists_saturating_product_iff (y : Cplx) (k : Coef) :
    (∃ x ∈ [y.re, y.im], ∃ c ∈ [k.c, k.s], x.toInt = -(2 ^ 31) ∧ c.toInt = -(2 ^ 15)) ↔
      ((fmul y.re k.c).ov = true ∨ (fmul y.re k.s).ov = true) ∨ (fmul y.im k.c).ov = true ∨ (fmul y.im k.s).ov = true := by
  simp only [List.mem_cons, List.not_mem_nil, or_false, exists_eq_or_imp, exists_eq_left, fmul_ov_iff]

/-- Settles O53: each operation is its saturating sums, and its overflow is the OR of theirs and of its products'. -/
theorem twiddleMultiplyFollowsItsEquations : Obligations.TwiddleMultiplyFollowsItsEquations := by
  refine ⟨fun y k => ?multiplies, fun a b => ?sums⟩
  case multiplies =>
    simp only [exists_saturating_product_iff]
    refine ⟨?negVal, ?negOv, ?posVal, ?posOv⟩
    case negVal | posVal => simp only [cmulNeg, cmulPos, sat32_eq, s32, fmul_val_toInt]
    case negOv | posOv =>
      simp only [cmulNeg, cmulPos, sat32_eq, s32, fmul_val_toInt, Bool.or_eq_true]
      tauto
  case sums => simp only [cadd_eq, csub_eq, Bool.or_eq_true, iff_self, and_self]

/-! ### The scale shift and the radix-2 stage (R16, R172) -/

theorem shs_right_toInt (v : Word) (n : Nat) : (shs v n).val.toInt = Int.fdiv v.toInt (2 ^ n) := by
  rw [shs_right, asr_toInt, Int.fdiv_eq_ediv_of_nonneg _ (by positivity)]

theorem shs_left_eq (v : Word) (n : Nat) :
    shs v (-(n : Int)) = ⟨BitVec.ofInt 32 (clamp 32 (v.toInt * 2 ^ n)), outOfRange 32 (v.toInt * 2 ^ n)⟩ := by
  rw [shs_left, sat32_eq, s32]

/-- R172: an iteration of the radix-2 stage saturates when one of its shifts, its sum, its difference or its product does. -/
theorem radix2Pair_ov_iff (cfg : Config) (r : Int) (zs : List Cplx) (n : Nat) :
    let a := (cshs (point zs n) r).val
    let b := (cshs (point zs (n + 256)) r).val
    (radix2Pair cfg r zs n).ov = true ↔
      (∃ v ∈ [(point zs n).re, (point zs n).im, (point zs (n + 256)).re, (point zs (n + 256)).im], (shs v r).ov = true) ∨
        (cadd a b).ov = true ∨ (csub a b).ov = true ∨
        (n ≠ 0 ∧ (cmulNeg (csub a b).val (romEntry cfg.tw n)).ov = true) := by
  simp only [radix2Pair, cshs, List.mem_cons, List.not_mem_nil, or_false, exists_eq_or_imp, exists_eq_left, Bool.or_eq_true]
  by_cases h0 : n = 0
  · simp only [h0, if_true, Bool.false_eq_true, ne_eq, not_true, false_and, or_false]
    tauto
  · simp only [h0, if_false, ne_eq, not_false_eq_true, true_and]
    tauto

/-- Settles O54: place `n` of the two halves, and the overflow of the stage, are those of iteration `n`. -/
theorem radixTwoStageFollowsItsEquations : Obligations.RadixTwoStageFollowsItsEquations := by
  refine ⟨fun v n => ?shift, fun cfg r zs => ?stage⟩
  case shift =>
    refine ⟨shs_right_toInt v n, by rw [shs_right], ?_, by rw [shs_left_eq]⟩
    rw [shs_left, sat32_val_toInt, s32]
  case stage =>
    refine ⟨radix2_low_length .., radix2_high_length .., fun n hn => ?places, ?overflow⟩
    case places =>
      obtain ⟨hlow, hhigh⟩ := radix2_point cfg r zs hn
      refine ⟨hlow, hhigh.trans ?_⟩
      simp only [radix2Pair]
      split <;> rfl
    case overflow =>
      rw [radix2_ov]
      exact exists_congr fun n => and_congr_right fun _ => radix2Pair_ov_iff cfg r zs n

end Sys2Proof.Machine
end

section
/-! PROOFS. The transforms on a legal run: the words they leave at each place, the peak, the exponent and the frame. -/

namespace Sys2Proof.Machine

/-! ### The position map (R15, R176) -/

theorem drev4_four_eq {p : Nat} (h : p < 256) :
    drev4 4 p = p % 4 * 64 + p / 4 % 4 * 16 + p / 16 % 4 * 4 + p / 64 := by
  simp only [drev4]
  omega

theorem drev4_four_lt {p : Nat} (h : p < 256) : drev4 4 p < 256 := by
  rw [drev4_four_eq h]
  omega

/-- R15: the digits of a number below 256, in the other order. -/
theorem drev4_four_digits {a b c d : Nat} (ha : a < 4) (hb : b < 4) (hc : c < 4) (hd : d < 4) :
    drev4 4 (a + 4 * b + 16 * c + 64 * d) = d + 4 * c + 16 * b + 64 * a := by
  rw [drev4_four_eq (by omega)]
  omega

/-- R15: the four digits reversed twice stand where they stood. -/
theorem drev4_four_drev4_four {p : Nat} (h : p < 256) : drev4 4 (drev4 4 p) = p := by
  obtain ⟨a, b, c, d, ha, hb, hc, hd, rfl⟩ :
      ∃ a b c d, a < 4 ∧ b < 4 ∧ c < 4 ∧ d < 4 ∧ p = a + 4 * b + 16 * c + 64 * d :=
    ⟨p % 4, p / 4 % 4, p / 16 % 4, p / 64, by omega, by omega, by omega, by omega, by omega⟩
  rw [drev4_four_digits ha hb hc hd, drev4_four_digits hd hc hb ha]

theorem binOf_lt {q : Nat} (h : q < 512) : binOf q < 512 := by
  have := drev4_four_lt (p := q / 2) (by omega)
  unfold binOf
  omega

/-- R176: the position map is its own inverse. -/
theorem binOf_binOf {q : Nat} (h : q < 512) : binOf (binOf q) = q := by
  have hdiv : binOf q / 2 = drev4 4 (q / 2) := by unfold binOf; omega
  have hmod : binOf q % 2 = q % 2 := by unfold binOf; omega
  rw [binOf, hdiv, hmod, drev4_four_drev4_four (by omega)]
  omega

/-- Settles O50: the digits are reversed twice, and the low bit of the position is kept. -/
theorem positionMapIsItsOwnInverse : Obligations.PositionMapIsItsOwnInverse :=
  ⟨fun _ hp => drev4_four_eq hp, fun _ hq => ⟨rfl, binOf_lt hq, binOf_binOf hq⟩⟩

/-! ### The normalisation shifts of a true peak (R148, R171, R181) -/

theorem peakWord_eq_ofNat (s : State) : s.peakWord = BitVec.ofNat 32 s.peak.toNat := by
  apply BitVec.eq_of_toNat_eq
  rw [State.peakWord, BitVec.toNat_setWidth, BitVec.toNat_ofNat]

theorem signFolded_peak (peak : BitVec 31) : signFolded (BitVec.ofNat 32 peak.toNat) = peak.toNat := by
  have hlt := peak.isLt
  have hint : (BitVec.ofNat 32 peak.toNat).toInt = peak.toNat := by
    rw [BitVec.toInt_eq_toNat_of_lt] <;> rw [BitVec.toNat_ofNat] <;> omega
  rw [signFolded_of_nonneg (by omega), hint, Int.toNat_natCast]

/-- R148: below the threshold the count is at least 3, so the two cases of the pre-shift are one maximum. -/
theorem shortPreShift_eq (peak : BitVec 31) :
    shortPreShift config (BitVec.ofNat 32 peak.toNat) = 3 - clrsb (BitVec.ofNat 32 peak.toNat) := by
  have hthr : (BitVec.ofNat 32 peak.toNat).toNat < config.thrShort ↔ 3 ≤ clrsb (BitVec.ofNat 32 peak.toNat) := by
    rw [le_clrsb_iff _ (by decide), signFolded_peak, BitVec.toNat_ofNat, Nat.mod_eq_of_lt (by omega)]
    rfl
  unfold shortPreShift
  split
  · next h =>
    have := hthr.1 h
    omega
  · rfl

/-- R103: a word whose `mag` is at most a peak has the range that the count of the peak leaves. -/
theorem toInt_within_of_mag_le {peak : BitVec 31} {v : Word} (h : (mag v).toNat ≤ peak.toNat) :
    -(2 ^ (31 - clrsb (BitVec.ofNat 32 peak.toNat))) ≤ v.toInt ∧
      v.toInt < 2 ^ (31 - clrsb (BitVec.ofNat 32 peak.toNat)) := by
  have hpeak : signFolded (BitVec.ofNat 32 peak.toNat) < 2 ^ (31 - clrsb (BitVec.ofNat 32 peak.toNat)) :=
    signFolded_lt_clrsb _
  have hmag : (mag v).toNat = signFolded v := by
    have := (mag_toNat v).trans (signFolded_eq v).symm
    omega
  rw [signFolded_peak] at hpeak
  exact (signFolded_lt_pow_iff v).1 (by omega)

/-- R16: a value of `a` bits below its sign, shifted so that `b` are left, does not saturate and has `b`. -/
theorem shs_within {v : Word} {a b : Nat} {r : Int} (hv : -(2 ^ a) ≤ v.toInt ∧ v.toInt < 2 ^ a) (hb : b ≤ 31)
    (hr : (a : Int) ≤ b + r) :
    (shs v r).ov = false ∧ -(2 ^ b) ≤ (shs v r).val.toInt ∧ (shs v r).val.toInt < 2 ^ b := by
  obtain ⟨n, rfl | rfl⟩ := Int.eq_nat_or_neg r
  · have hpow : (2 : Int) ^ a ≤ 2 ^ b * 2 ^ n := by
      rw [← pow_add]
      exact pow_le_pow_right₀ (by decide) (by omega)
    have hpos : (0 : Int) < 2 ^ n := by positivity
    rw [shs_right, asr_toInt, Int.le_ediv_iff_mul_le hpos, Int.ediv_lt_iff_lt_mul hpos]
    exact ⟨rfl, by linarith, by linarith⟩
  · have hpow : (2 : Int) ^ a * 2 ^ n ≤ 2 ^ b := by
      rw [← pow_add]
      exact pow_le_pow_right₀ (by decide) (by omega)
    have hword : (2 : Int) ^ b ≤ 2 ^ 31 := pow_le_pow_right₀ (by decide) hb
    have hpos : (0 : Int) < 2 ^ n := by positivity
    have hlo : -(2 ^ b) ≤ v.toInt * 2 ^ n := by nlinarith
    have hhi : v.toInt * 2 ^ n < 2 ^ b := by nlinarith
    have hin : outOfRange 32 (v.toInt * 2 ^ n) = false := outOfRange_eq_false_iff.2 ⟨by omega, by omega⟩
    rw [shs_left, sat32_val_toInt, s32, clamp_of_inRange hin, sat32_eq]
    exact ⟨hin, hlo, hhi⟩

/-- Settles O58: each shift is the headroom less the count of the peak, and the count bounds the value. -/
theorem truePeakLeavesHeadroom : Obligations.TruePeakLeavesHeadroom := by
  refine ⟨mag_toNat, fun peak v hle => ?_⟩
  have hc := clrsb_le (BitVec.ofNat 32 peak.toNat)
  have hv := toInt_within_of_mag_le hle
  refine ⟨?short, shs_within hv (by decide) ?mix, shs_within hv (by decide) ?rot⟩
  case short =>
    have h := shs_within (b := 28) (r := (3 - clrsb (BitVec.ofNat 32 peak.toNat) : Nat)) hv (by decide) (by omega)
    rw [shs_right] at h
    rw [shortPreShift_eq]
    exact h.2
  case mix => simp only [mixShift, config]; omega
  case rot => simp only [rotShift, config]; omega

/-! ### A run read and replaced (R65, R74) -/

theorem runFault_of_legalRun {base : Word} {len : Nat} (h : legalRun base len) : runFault base len = none := by
  obtain ⟨heven, hfits⟩ := h
  refine (runFault_eq_none base len).2 ⟨?_, hfits⟩
  rw [BitVec.getLsbD, Nat.testBit_zero, heven]
  rfl

theorem withRun_of_legalRun {s : State} {rs1 : RegNum} {len : Nat} (h : legalRun (s.reg rs1) len) (i : Instr)
    (effect : Nat → State → State) : withRun i rs1 len effect s = .next (effect (s.reg rs1).toNat s) := by
  rw [withRun, runFault_of_legalRun h]

/-- R74: a replaced run is read back whole. -/
theorem bufRun_setBufRun (s : State) (base : Nat) (vs : List Word) : (s.setBufRun base vs).bufRun base vs.length = vs := by
  refine List.ext_getElem (by simp) fun i _ hi => ?_
  rw [← s.setBufRun_inside (base := base) hi]
  simp [State.bufRun]

/-- R146: the peak of the new points is the peak of the run that holds them. -/
theorem runPeak_setPoints (s : State) (base : Nat) (zs : List Cplx) :
    runPeak (s.setPoints base zs) base (2 * zs.length) = peakOf zs := by
  rw [runPeak, State.setPoints, ← pointWords_length, bufRun_setBufRun, peakOf]

/-! ### The two engines' commands (R147, R148) -/

/-- R146: what both engines' commands do with the new points and the exponent. -/
def State.storeTransform (s : State) (base : Nat) (out : Sat (List Cplx)) (e : Word) : State :=
  (((s.setPoints base out.val).orOv out.ov).setPeak (peakOf out.val)).setExp e

theorem fft4lEffect_eq (base : Nat) (s : State) :
    fft4lEffect config base s = s.storeTransform base (fft4 config [2, 2, 2, 2] (s.points base 256)) 8 := rfl

theorem fft4sEffect_eq (base : Nat) (s : State) :
    fft4sEffect config base s =
      s.storeTransform base
        (fft4 config [2, 2, 2] ((s.points base 64).map fun z => cshift z (3 - clrsb (BitVec.ofNat 32 s.peak.toNat))))
        (BitVec.ofNat 32 (3 - clrsb (BitVec.ofNat 32 s.peak.toNat) + 6)) := by
  rw [← shortPreShift_eq, ← peakWord_eq_ofNat]
  rfl

/-- R146: the run of `n` points that an engine's command leaves, its flag, its peak, its exponent and its frame. -/
theorem storeTransform_spec (s : State) (base : Nat) {out : Sat (List Cplx)} (e : Word) {n : Nat}
    (hn : out.val.length = n) :
    let t := s.storeTransform base out e
    (∀ p, p < n → t.bufWord (base + 2 * p) = (point out.val p).re ∧ t.bufWord (base + 2 * p + 1) = (point out.val p).im) ∧
      t.ov = (s.ov || out.ov) ∧ t.peak = runPeak t base (2 * n) ∧ t.exp = e ∧
      outsideUnchanged s t base (2 * n) ∧ restUnchanged s t := by
  subst hn
  exact ⟨fun p hp => ⟨s.setPoints_re hp, s.setPoints_im hp⟩, rfl, (runPeak_setPoints s base out.val).symm, rfl,
    fun a ha => s.setPoints_frame ha, rfl, rfl, rfl, rfl, rfl, rfl, rfl⟩

/-- Settles O46: on a legal run `FFT4L` stores the engine's output. -/
theorem longTransformCompletes : Obligations.LongTransformCompletes := by
  intro rs1 s hrun base out
  have hlen : out.val.length = 256 := by rw [fft4_length, State.points_length]
  refine ⟨s.storeTransform base out 8, ?_, storeTransform_spec s base 8 hlen⟩
  exact (withRun_of_legalRun hrun (.fft4l rs1) (fft4lEffect config)).trans (congrArg _ (fft4lEffect_eq base s))

/-- Settles O47: on a legal run `FFT4S` stores the engine's output on the run shifted by the pre-shift. -/
theorem shortTransformCompletes : Obligations.ShortTransformCompletes := by
  intro rs1 s hrun base e0 out
  have hlen : out.val.length = 64 := by rw [fft4_length, List.length_map, State.points_length]
  refine ⟨s.storeTransform base out (BitVec.ofNat 32 (e0 + 6)), ?_, storeTransform_spec s base _ hlen⟩
  exact (withRun_of_legalRun hrun (.fft4s rs1) (fft4sEffect config)).trans (congrArg _ (fft4sEffect_eq base s))

/-! ### The post-rotation (R180 to R185) -/

/-- R183: the real part of input point `q` stands at twice its bin. -/
theorem placed_re (ys : List Cplx) {q : Nat} (hq : q < 512) : placed ys (2 * binOf q) = (point ys q).re := by
  rw [placed, if_pos (by omega), Nat.mul_div_cancel_left _ (by decide), binOf_binOf hq]

/-- R183: the imaginary part of input point `q` stands at twice its bin, counted from the end. -/
theorem placed_im (ys : List Cplx) {q : Nat} (hq : q < 512) : placed ys (1023 - 2 * binOf q) = (point ys q).im := by
  have hk := binOf_lt hq
  have hbin : 511 - (1023 - 2 * binOf q) / 2 = binOf q := by omega
  rw [placed, if_neg (by omega), show nMix - 1 = 511 from rfl, hbin, binOf_binOf hq]

/-- R184: the new first half is the second half of `t`, negated. -/
theorem rotatedWord_negated (ys : List Cplx) {i : Nat} (hi : i < 512) :
    rotatedWord ys i = ⟨BitVec.ofInt 32 (clamp 32 (-(placed ys (512 + i)).toInt)),
      outOfRange 32 (-(placed ys (512 + i)).toInt)⟩ := by
  rw [rotatedWord, if_pos hi, Int.zero_sub, sat32_eq, s32]

/-- R184: the new second half is the first half of `t`. -/
theorem rotatedWord_kept (ys : List Cplx) (i : Nat) : rotatedWord ys (512 + i) = ⟨placed ys i, false⟩ := by
  rw [rotatedWord, if_neg (Nat.not_lt.2 (Nat.le_add_right nMix i)), Nat.add_sub_cancel_left]

theorem neg_outOfRange_iff (v : Word) : outOfRange 32 (-v.toInt) = true ↔ v.toInt = -(2 ^ 31) := by
  have hlo := v.le_toInt
  have hhi := v.toInt_lt
  simp only [outOfRange, decide_eq_true_eq]
  omega

theorem rotatedWord_negated_ov_iff (ys : List Cplx) {i : Nat} (hi : i < 512) :
    (rotatedWord ys i).ov = true ↔ (placed ys (512 + i)).toInt = -(2 ^ 31) := by
  rw [← neg_outOfRange_iff, rotatedWord_negated ys hi]

/-- R184: the part of input point `q` that stands in the new first half is the most negative word. -/
def negationSaturates (ys : List Cplx) (q : Nat) : Prop :=
  if binOf q < 256 then (point ys q).im.toInt = -(2 ^ 31) else (point ys q).re.toInt = -(2 ^ 31)

/-- R184: a word of `t` in its second half is a part of one input point, and that part is the one negated. -/
theorem exists_negationSaturates {ys : List Cplx} {i : Nat} (hi : i < 512)
    (h : (placed ys (512 + i)).toInt = -(2 ^ 31)) : ∃ q < 512, negationSaturates ys q := by
  rcases Nat.mod_two_eq_zero_or_one i with heven | hodd
  · have hq := binOf_lt (q := (512 + i) / 2) (by omega)
    have hk := binOf_binOf (q := (512 + i) / 2) (by omega)
    refine ⟨binOf ((512 + i) / 2), hq, ?_⟩
    rw [negationSaturates, if_neg (by omega), ← placed_re ys hq, hk, show 2 * ((512 + i) / 2) = 512 + i by omega]
    exact h
  · have hq := binOf_lt (q := 511 - (512 + i) / 2) (by omega)
    have hk := binOf_binOf (q := 511 - (512 + i) / 2) (by omega)
    refine ⟨binOf (511 - (512 + i) / 2), hq, ?_⟩
    rw [negationSaturates, if_pos (by omega), ← placed_im ys hq, hk,
      show 1023 - 2 * (511 - (512 + i) / 2) = 512 + i by omega]
    exact h

/-- R184: some word of the new run saturates exactly when the negation of some point's part does. -/
theorem exists_rotatedWord_ov_iff (ys : List Cplx) :
    (∃ i < 1024, (rotatedWord ys i).ov = true) ↔ ∃ q < 512, negationSaturates ys q := by
  constructor
  · rintro ⟨i, -, hov⟩
    rcases Nat.lt_or_ge i 512 with hi | hi
    · exact exists_negationSaturates hi ((rotatedWord_negated_ov_iff ys hi).1 hov)
    · obtain ⟨j, rfl⟩ := Nat.exists_eq_add_of_le hi
      simp [rotatedWord_kept] at hov
  · rintro ⟨q, hq, hneg⟩
    have hk := binOf_lt hq
    unfold negationSaturates at hneg
    split at hneg
    · refine ⟨511 - 2 * binOf q, by omega, (rotatedWord_negated_ov_iff ys (by omega)).2 ?_⟩
      rw [show 512 + (511 - 2 * binOf q) = 1023 - 2 * binOf q by omega, placed_im ys hq, hneg]
    · refine ⟨2 * binOf q - 512, by omega, (rotatedWord_negated_ov_iff ys (by omega)).2 ?_⟩
      rw [show 512 + (2 * binOf q - 512) = 2 * binOf q by omega, placed_re ys hq, hneg]

/-- R182: the points of the run after the rotation, in input order. -/
def rotatedPoints (cfg : Config) (r : Int) (zs : List Cplx) : List Cplx :=
  (Sat.collect ((List.range nMix).map (rotated cfg r zs))).val

theorem point_rotatedPoints (cfg : Config) (r : Int) (zs : List Cplx) {q : Nat} (hq : q < 512) :
    point (rotatedPoints cfg r zs) q = (rotated cfg r zs q).val := rotated_point cfg r zs hq

/-- R185: `POSTROT` saturates when a rotation does or a negation does. -/
theorem postRotate_ov_iff (cfg : Config) (r : Int) (zs : List Cplx) :
    (postRotate cfg r zs).ov = true ↔
      ∃ q < 512, (rotated cfg r zs q).ov = true ∨ negationSaturates (rotatedPoints cfg r zs) q := by
  have hsplit : (postRotate cfg r zs).ov = true ↔
      (∃ q < 512, (rotated cfg r zs q).ov = true) ∨ ∃ i < 1024, (rotatedWord (rotatedPoints cfg r zs) i).ov = true := by
    simp [postRotate, Sat.collect, rotatedPoints, show nMix = 512 from rfl]
  rw [hsplit, exists_rotatedWord_ov_iff, ← exists_or]
  simp only [and_or_left]

/-- R182: the rotated point of a run's point, with the shifts and the product that can saturate. -/
theorem rotated_points (cfg : Config) (r : Int) (s : State) (base : Nat) {q : Nat} (hq : q < 512) :
    rotated cfg r (s.points base 512) q =
      let re := shs (s.bufWord (base + 2 * q)) r
      let im := shs (s.bufWord (base + 2 * q + 1)) r
      let product := cmulPos ⟨re.val, im.val⟩ (romEntry cfg.rot (binOf q))
      ⟨product.val, re.ov || im.ov || product.ov⟩ := by
  simp only [rotated, cshs, State.points_point s hq]

/-- R184: word `i` of the run that `POSTROT` leaves. -/
theorem setBufRun_postRotate_bufWord (s : State) (base : Nat) (cfg : Config) (r : Int) (zs : List Cplx) {i : Nat}
    (hi : i < 1024) :
    (s.setBufRun base (postRotate cfg r zs).val).bufWord (base + i) = (rotatedWord (rotatedPoints cfg r zs) i).val := by
  rw [State.setBufRun_bufWord, if_pos (Nat.le_add_right base i), Nat.add_sub_cancel_left, postRotate_word cfg r zs hi]
  rfl

/-- R184: the destination table: where the two parts of the rotated point of each bin stand. -/
theorem postRotate_places (s : State) (base : Nat) (cfg : Config) (r : Int) (zs : List Cplx) {q : Nat} (hq : q < 512) :
    let t := s.setBufRun base (postRotate cfg r zs).val
    let y := (rotated cfg r zs q).val
    (binOf q < 256 → t.bufWord (base + 512 + 2 * binOf q) = y.re ∧
      t.bufWord (base + 511 - 2 * binOf q) = BitVec.ofInt 32 (clamp 32 (-y.im.toInt))) ∧
    (256 ≤ binOf q → t.bufWord (base + 2 * binOf q - 512) = BitVec.ofInt 32 (clamp 32 (-y.re.toInt)) ∧
      t.bufWord (base + 1535 - 2 * binOf q) = y.im) := by
  intro t y
  have hk := binOf_lt hq
  have hy : point (rotatedPoints cfg r zs) q = y := point_rotatedPoints cfg r zs hq
  have hre := placed_re (rotatedPoints cfg r zs) hq
  have him := placed_im (rotatedPoints cfg r zs) hq
  rw [hy] at hre him
  have hkept {j : Nat} (hj : j < 512) : t.bufWord (base + (512 + j)) = placed (rotatedPoints cfg r zs) j := by
    rw [setBufRun_postRotate_bufWord s base cfg r zs (by omega), rotatedWord_kept]
  have hnegated {i : Nat} (hi : i < 512) : t.bufWord (base + i) =
      BitVec.ofInt 32 (clamp 32 (-(placed (rotatedPoints cfg r zs) (512 + i)).toInt)) := by
    rw [setBufRun_postRotate_bufWord s base cfg r zs (by omega), rotatedWord_negated _ hi]
  refine ⟨fun hlow => ⟨?_, ?_⟩, fun hhigh => ⟨?_, ?_⟩⟩
  · rw [Nat.add_assoc, hkept (by omega), hre]
  · rw [Nat.add_sub_assoc (by omega), hnegated (by omega), show 512 + (511 - 2 * binOf q) = 1023 - 2 * binOf q by omega, him]
  · rw [Nat.add_sub_assoc (by omega), hnegated (by omega), show 512 + (2 * binOf q - 512) = 2 * binOf q by omega, hre]
  · rw [show base + 1535 - 2 * binOf q = base + (512 + (1023 - 2 * binOf q)) by omega, hkept (by omega), him]

/-- R185: what `POSTROT` does with the new words and the exponent; `PEAK` stays. -/
def State.storeRotation (s : State) (base : Nat) (out : Sat (List Word)) (e : Word) : State :=
  ((s.setBufRun base out.val).orOv out.ov).setExp e

theorem postrotEffect_eq (base : Nat) (s : State) :
    postrotEffect config base s =
      s.storeRotation base (postRotate config (1 - clrsb (BitVec.ofNat 32 s.peak.toNat)) (s.points base 512))
        (BitVec.ofInt 32 (1 - clrsb (BitVec.ofNat 32 s.peak.toNat))) := by
  rw [← peakWord_eq_ofNat]
  rfl

/-- R185: the flag, the peak, the exponent and the frame of the state that `POSTROT` leaves. -/
theorem storeRotation_spec (s : State) (base : Nat) (out : Sat (List Word)) (e : Word) :
    let t := s.storeRotation base out e
    t.ov = (s.ov || out.ov) ∧ t.peak = s.peak ∧ t.exp = e ∧ outsideUnchanged s t base out.val.length ∧
      restUnchanged s t :=
  ⟨rfl, rfl, rfl, fun _ ha => s.setBufRun_frame ha, rfl, rfl, rfl, rfl, rfl, rfl, rfl⟩

theorem storeRotation_bufWord (s : State) (base : Nat) (out : Sat (List Word)) (e : Word) (a : Nat) :
    (s.storeRotation base out e).bufWord a = (s.setBufRun base out.val).bufWord a := rfl

/-- Settles O49: the places are those of `postRotate_places`, and the overflow is that of `postRotate_ov_iff`. -/
theorem postRotationPlacesEveryBin : Obligations.PostRotationPlacesEveryBin := by
  intro rs1 s hrun base r k re im product y neg
  have hrot {q : Nat} (hq : q < 512) : rotated config r (s.points base 512) q =
      ⟨y q, (re q).ov || (im q).ov || (product q).ov⟩ := rotated_points config r s base hq
  have hexec := (withRun_of_legalRun hrun (.postrot rs1) (postrotEffect config)).trans
    (congrArg _ (postrotEffect_eq base s))
  obtain ⟨hov, hpeak, hexp, houtside, hrest⟩ :=
    storeRotation_spec s base (postRotate config r (s.points base 512)) (BitVec.ofInt 32 r)
  rw [postRotate_length] at houtside
  refine ⟨s.storeRotation base (postRotate config r (s.points base 512)) (BitVec.ofInt 32 r), hexec,
    fun q hq => ⟨hrot hq, ?places⟩, ?overflow, hpeak, hexp, houtside, hrest⟩
  case places =>
    have hplaces := postRotate_places s base config r (s.points base 512) hq
    rw [hrot hq, show binOf q = k q from rfl] at hplaces
    simp only [storeRotation_bufWord]
    exact hplaces
  case overflow =>
    have hnegation {q : Nat} (hq : q < 512) : negationSaturates (rotatedPoints config r (s.points base 512)) q ↔
        if k q < 256 then (y q).im.toInt = -(2 ^ 31) else (y q).re.toInt = -(2 ^ 31) := by
      rw [negationSaturates, point_rotatedPoints _ _ _ hq, hrot hq]
      rfl
    rw [hov, Bool.or_eq_true, postRotate_ov_iff]
    refine or_congr Iff.rfl (exists_congr fun q => and_congr_right fun hq => ?_)
    rw [hnegation hq, hrot hq]
    simp only [Bool.or_eq_true, or_assoc]

end Sys2Proof.Machine
end

section
/-! PROOFS. The family of 10_state.md: what a command can do, said once for all 26; the invariant and the frames follow. -/

namespace Sys2Proof.Machine

/-! ### The word that a fault records (R84, R85) -/

theorem unusedFieldNonzero_commandWord (f : Format) (op : BitVec 6) (rd rs1 rs2 : RegNum) (imm : Half) :
    unusedFieldNonzero f (commandWord op rd rs1 rs2 imm) =
      (!f.rd && rd != 0 || !f.rs1 && rs1 != 0 || !f.rs2 && rs2 != 0 || !f.imm && imm != 0) := by
  simp only [unusedFieldNonzero, fieldRd_commandWord, fieldRs1_commandWord, fieldRs2_commandWord, fieldImm_commandWord]

/-- R80 step 4: a word whose `z` bit is 0 is accepted when the fields that its format does not use are zero. -/
theorem accept_commandWord {f : Format} {op : BitVec 6} {rd rs1 rs2 : RegNum} {imm : Half} {i : Instr}
    (h : (!f.rd && rd != 0 || !f.rs1 && rs1 != 0 || !f.rs2 && rs2 != 0 || !f.imm && imm != 0) = false) :
    accept f (commandWord op rd rs1 rs2 imm) i = .ok i := by
  rw [accept, fieldZ_commandWord, unusedFieldNonzero_commandWord, h]
  rfl

/-- R84, R85: every command's word decodes to that command; a fault on its operands records that word (R212, log 6). -/
theorem decode_encode (i : Instr) : decode (encode i) = .ok i := by
  cases i <;>
    simp only [decode, encode, fieldOp_commandWord, fieldRd_commandWord, fieldRs1_commandWord, fieldRs2_commandWord,
      fieldImm_commandWord]
  case nop | clrov => exact accept_commandWord (f := formatN) rfl
  case li | lih | mfs => exact accept_commandWord (f := formatDI) rfl
  case mts => exact accept_commandWord (f := formatSI) rfl
  case ldw => exact accept_commandWord (f := formatDSI) rfl
  case stw => exact accept_commandWord (f := formatSSI) rfl
  case norm32 | norm16 | rnd16 | mov => exact accept_commandWord (f := formatDS) rfl
  case fft4l | fft4s | mixfft | postrot => exact accept_commandWord (f := formatS) rfl
  case add32 | sub32 | add16 | sub16 | mul16 | mac16 | msu16 | mulq | shl32 | shr32 =>
    exact accept_commandWord (f := formatDSS) rfl

/-! ### What a command can do -/

/-- R211, columns "Raised by" and "Condition": the causes that a command's operand checks can raise. -/
def raisable (i : Instr) : Cause → Bool
  | .illegalCommand => false
  | .bufferRange => isBufferAccess i || isTransform i
  | .oddBase => isTransform i
  | .badSpecialRegister => !i.wellFormed

/-- R24, R196, R197: the command clears `OV` in the state. -/
def clearsOv (s : State) (i : Instr) : Prop :=
  i = .clrov ∨ ∃ rs1, i = .mts 0 rs1 ∧ (s.reg rs1).toNat % 2 = 0

/-- What a command that takes no fault leaves alone (R22 to R34), and that it keeps `BUF` canonical (log 21). -/
structure Completed (i : Instr) (s t : State) : Prop where
  latch : t.err = s.err ∧ t.cause = s.cause ∧ t.ecmd = s.ecmd
  host : t.resets = s.resets ∧ t.pending = s.pending ∧ t.reply = s.reply
  regs : ∀ j, destination i ≠ some j → t.reg j = s.reg j
  buf : outsideUnchanged s t (footprint s i).1 (footprint s i).2
  bufCanonical : s.buf.wf = true → t.buf.wf = true
  ov : mayWriteOv i = false → t.ov = s.ov
  ovSticky : s.ov = true → t.ov = true ∨ clearsOv s i
  peak : mayWritePeak i = false → t.peak = s.peak
  exp : mayWriteExp i = false → t.exp = s.exp

/-- R80 steps 5 and 6: a command takes a fault that its operand checks can raise, or completes. -/
def CommandOutcome (i : Instr) (s t : State) : Prop :=
  (∃ c, raisable i c = true ∧ t = s.raiseFault c (encode i)) ∨ Completed i s t

/-! The shapes in which the commands complete. -/

theorem completed_unchanged (i : Instr) (s : State) : Completed i s s where
  latch := ⟨rfl, rfl, rfl⟩
  host := ⟨rfl, rfl, rfl⟩
  regs _ _ := rfl
  buf _ _ := rfl
  bufCanonical := id
  ov _ := rfl
  ovSticky := .inl
  peak _ := rfl
  exp _ := rfl

theorem completed_setReg {i : Instr} {rd : RegNum} (hd : destination i = some rd) (s : State) (v : Word) :
    Completed i s (s.setReg rd v) :=
  { completed_unchanged i s with
    regs := fun j hj => by rw [State.setReg_reg, if_neg fun h => hj (hd.trans (congrArg some h))] }

/-- R24: a saturating command writes its destination and can set `OV`. -/
theorem completed_setReg_orOv {i : Instr} {rd : RegNum} (hd : destination i = some rd) (hov : mayWriteOv i = true)
    (s : State) (v : Word) (b : Bool) : Completed i s ((s.setReg rd v).orOv b) :=
  { completed_setReg hd s v with
    ov := fun h => by simp [hov] at h
    ovSticky := fun h => .inl (by simp [h]) }

/-- R74, R185: what the transforms write besides the run: `OV`, `PEAK` and `EXP`. -/
def State.storeRun (s : State) (base : Nat) (vs : List Word) (b : Bool) (p : BitVec 31) (e : Word) : State :=
  (((s.setBufRun base vs).orOv b).setPeak p).setExp e

theorem mayWriteOvExp_of_isTransform {i : Instr} (h : isTransform i = true) :
    mayWriteOv i = true ∧ mayWriteExp i = true := by
  cases i
  case fft4l | fft4s | mixfft | postrot => exact ⟨rfl, rfl⟩
  all_goals contradiction

theorem completed_storeRun {i : Instr} {s : State} {base len : Nat} {vs : List Word} {p : BitVec 31}
    (hfit : base + len ≤ bufWords) (hlen : vs.length = len) (ht : isTransform i = true)
    (hfoot : footprint s i = (base, len)) (hpeak : mayWritePeak i = true ∨ p = s.peak) (b : Bool) (e : Word) :
    Completed i s (s.storeRun base vs b p e) := by
  subst hlen
  obtain ⟨hov, hexp⟩ := mayWriteOvExp_of_isTransform ht
  exact { completed_unchanged i s with
    buf := fun a ha => by
      rw [hfoot] at ha
      exact s.setBufRun_frame ha
    bufCanonical := fun h => Memory.writeRun_wf vs h hfit
    ov := fun h => by simp [hov] at h
    ovSticky := fun h => .inl (by simp [State.storeRun, h])
    peak := fun h => hpeak.resolve_left (by simp [h])
    exp := fun h => by simp [hexp] at h }

/-! The checks of the operands (R64, R65, R195, R196). -/

theorem readableSreg_eq_none_iff (n : Half) : readableSreg n = none ↔ 3 < n.toNat := by
  unfold readableSreg
  split <;> simp_all
  omega

theorem writableSreg_eq_none_iff (n : Half) : writableSreg n = none ↔ 2 < n.toNat := by
  unfold writableSreg
  split <;> simp_all
  omega

/-- R27: the number of a special register that can be written. -/
def WritableSReg.number : WritableSReg → Half
  | .status => 0
  | .peak => 1
  | .exp => 2

theorem writableSreg_eq_some_iff (n : Half) (r : WritableSReg) : writableSreg n = some r ↔ n = r.number := by
  constructor
  · intro h
    unfold writableSreg at h
    split at h <;> cases h
    all_goals exact BitVec.eq_of_toNat_eq ‹_›
  · rintro rfl
    cases r <;> rfl

theorem getLsbD_zero_eq (v : Word) : v.getLsbD 0 = decide (v.toNat % 2 = 1) := Nat.testBit_zero _

theorem completed_writeSreg (r : WritableSReg) (rs1 : RegNum) (s : State) :
    Completed (.mts r.number rs1) s (s.writeSreg r (s.reg rs1)) := by
  have h := completed_unchanged (.mts r.number rs1) s
  cases r with
  | status =>
    refine { h with ov := nofun, ovSticky := fun _ => ?_ }
    rw [State.writeSreg, State.setOv_ov, getLsbD_zero_eq, decide_eq_true_eq]
    exact (Nat.mod_two_eq_zero_or_one _).symm.imp_right fun heven => .inr ⟨rs1, rfl, heven⟩
  | peak => exact { h with peak := nofun }
  | exp => exact { h with exp := nofun }

theorem completed_setOv_false (s : State) : Completed .clrov s (s.setOv false) :=
  { completed_unchanged .clrov s with
    ov := nofun
    ovSticky := fun _ => .inr (.inl rfl) }

theorem completed_setBufWord {rs1 rs2 : RegNum} {imm : Half} {s : State}
    (hfit : (s.effectiveAddress rs1 imm).toNat < bufWords) (v : Word) :
    Completed (.stw rs2 imm rs1) s (s.setBufWord (s.effectiveAddress rs1 imm).toNat v) :=
  { completed_unchanged (.stw rs2 imm rs1) s with
    buf := fun a ha => by
      rw [State.setBufWord_bufWord, if_neg]
      rintro rfl
      exact ha ⟨Nat.le_refl _, Nat.lt_succ_self _⟩
    bufCanonical := fun h => Memory.write_wf v h hfit }

theorem runFault_eq_some {base : Word} {len : Nat} {c : Cause} (h : runFault base len = some c) :
    c = .oddBase ∨ c = .bufferRange := by
  unfold runFault at h
  split at h
  · exact .inl (Option.some.inj h).symm
  · split at h
    · exact .inr (Option.some.inj h).symm
    · contradiction

/-- R65: a transform takes the fault of its run's checks, or completes by its effect. -/
theorem withRun_outcome {i : Instr} {rs1 : RegNum} {len : Nat} {effect : Nat → State → State} {s : State}
    (ht : isTransform i = true)
    (heffect : (s.reg rs1).toNat + len ≤ bufWords → Completed i s (effect (s.reg rs1).toNat s)) :
    ∃ t, withRun i rs1 len effect s = .next t ∧ CommandOutcome i s t := by
  obtain ⟨t, hnext⟩ := withRun_next i rs1 len effect s
  refine ⟨t, hnext, ?_⟩
  obtain ⟨c, hc, rfl⟩ | ⟨hnone, rfl⟩ := withRun_cases hnext
  · obtain rfl | rfl := runFault_eq_some hc
    · exact .inl ⟨.oddBase, ht, rfl⟩
    · exact .inl ⟨.bufferRange, by simp [raisable, ht], rfl⟩
  · exact .inr (heffect ((runFault_eq_none _ _).1 hnone).2)

theorem fft4l_completed {rs1 : RegNum} {s : State} (hfit : (s.reg rs1).toNat + 2 * nLong ≤ bufWords) :
    Completed (.fft4l rs1) s (fft4lEffect config (s.reg rs1).toNat s) :=
  completed_storeRun hfit (by rw [pointWords_length, fft4_length, State.points_length]) rfl rfl (.inl rfl) _ _

theorem fft4s_completed {rs1 : RegNum} {s : State} (hfit : (s.reg rs1).toNat + 2 * nShort ≤ bufWords) :
    Completed (.fft4s rs1) s (fft4sEffect config (s.reg rs1).toNat s) :=
  completed_storeRun hfit (by rw [pointWords_length, fft4_length, List.length_map, State.points_length]) rfl rfl (.inl rfl)
    _ _

theorem mixfft_completed {rs1 : RegNum} {s : State} (hfit : (s.reg rs1).toNat + 2 * nMix ≤ bufWords) :
    Completed (.mixfft rs1) s (mixfftEffect config (s.reg rs1).toNat s) :=
  completed_storeRun hfit (by rw [pointWords_length, mixTransform_length]) rfl rfl (.inl rfl) _ _

/-- R185: what `POSTROT` stores, with `PEAK` written as it was. -/
theorem storeRotation_eq_storeRun (s : State) (base : Nat) (out : Sat (List Word)) (e : Word) :
    s.storeRotation base out e = s.storeRun base out.val out.ov s.peak e := rfl

theorem postrot_completed {rs1 : RegNum} {s : State} (hfit : (s.reg rs1).toNat + 2 * nMix ≤ bufWords) :
    Completed (.postrot rs1) s (postrotEffect config (s.reg rs1).toNat s) := by
  rw [postrotEffect_eq, storeRotation_eq_storeRun]
  exact completed_storeRun hfit (postRotate_length ..) rfl rfl (.inr rfl) _ _

/-- R195: `MFS` takes the fault of a number that no special register has, or writes its destination. -/
theorem execMfs_outcome (rd : RegNum) (n : Half) (s : State) :
    ∃ t, execMfs rd n s = .next t ∧ CommandOutcome (.mfs rd n) s t := by
  unfold execMfs
  split
  · next h =>
    have hbad := (readableSreg_eq_none_iff n).1 h
    exact ⟨_, rfl, .inl ⟨.badSpecialRegister, by simp [raisable, Instr.wellFormed, readableSregNumber, hbad], rfl⟩⟩
  · exact ⟨_, rfl, .inr (completed_setReg rfl s _)⟩

/-- R196: `MTS` takes the fault of a number that cannot be written, or writes that special register. -/
theorem execMts_outcome (n : Half) (rs1 : RegNum) (s : State) :
    ∃ t, execMts n rs1 s = .next t ∧ CommandOutcome (.mts n rs1) s t := by
  unfold execMts
  split
  · next h =>
    have hbad := (writableSreg_eq_none_iff n).1 h
    exact ⟨_, rfl, .inl ⟨.badSpecialRegister, by simp [raisable, Instr.wellFormed, writableSregNumber, hbad], rfl⟩⟩
  · next r h =>
    obtain rfl := (writableSreg_eq_some_iff n r).1 h
    exact ⟨_, rfl, .inr (completed_writeSreg r rs1 s)⟩

/-- R64, R198: `LDW` takes the fault of an index outside `BUF`, or writes its destination. -/
theorem execLdw_outcome (rd : RegNum) (imm : Half) (rs1 : RegNum) (s : State) :
    ∃ t, execLdw rd imm rs1 s = .next t ∧ CommandOutcome (.ldw rd imm rs1) s t := by
  dsimp only [execLdw]
  split
  · exact ⟨_, rfl, .inr (completed_setReg rfl s _)⟩
  · exact ⟨_, rfl, .inl ⟨.bufferRange, rfl, rfl⟩⟩

/-- R64, R199: `STW` takes the fault of an index outside `BUF`, or writes the word at it. -/
theorem execStw_outcome (rs2 : RegNum) (imm : Half) (rs1 : RegNum) (s : State) :
    ∃ t, execStw rs2 imm rs1 s = .next t ∧ CommandOutcome (.stw rs2 imm rs1) s t := by
  dsimp only [execStw]
  split
  · next hfit => exact ⟨_, rfl, .inr (completed_setBufWord hfit _)⟩
  · exact ⟨_, rfl, .inl ⟨.bufferRange, rfl, rfl⟩⟩

/-- R236, R240: every command answers a next state, which a fault or its completion left. -/
theorem exec_outcome (i : Instr) (s : State) : ∃ t, exec i s = .next t ∧ CommandOutcome i s t := by
  cases i with
  | nop => exact ⟨_, rfl, .inr (completed_unchanged _ s)⟩
  | clrov => exact ⟨_, rfl, .inr (completed_setOv_false s)⟩
  | li | lih | mov | norm32 | norm16 | mul16 | shr32 => exact ⟨_, rfl, .inr (completed_setReg rfl s _)⟩
  | add32 | sub32 | add16 | sub16 | mac16 | msu16 | rnd16 | mulq | shl32 =>
    exact ⟨_, rfl, .inr (completed_setReg_orOv rfl rfl s _ _)⟩
  | mfs rd n => exact execMfs_outcome rd n s
  | mts n rs1 => exact execMts_outcome n rs1 s
  | ldw rd imm rs1 => exact execLdw_outcome rd imm rs1 s
  | stw rs2 imm rs1 => exact execStw_outcome rs2 imm rs1 s
  | fft4l => exact withRun_outcome rfl fft4l_completed
  | fft4s => exact withRun_outcome rfl fft4s_completed
  | mixfft => exact withRun_outcome rfl mixfft_completed
  | postrot => exact withRun_outcome rfl postrot_completed

theorem exec_cases {i : Instr} {s t : State} (h : exec i s = .next t) : CommandOutcome i s t := by
  obtain ⟨u, hu, houtcome⟩ := exec_outcome i s
  rwa [← Host.Outcome.next.inj (hu.symm.trans h)]

/-! ### The frames -/

/-- Settles O22: a fault writes no register, and a command that completes writes its destination. -/
theorem generalRegisterFrame : Obligations.GeneralRegisterFrame := by
  intro i s t j h hj
  obtain ⟨c, -, rfl⟩ | hc := exec_cases h
  · rfl
  · exact hc.regs j hj

/-- Settles O23: a fault writes no word of `BUF`, and a command that completes writes its footprint. -/
theorem bufferFrame : Obligations.BufferFrame := by
  intro i s t a h ha
  obtain ⟨c, -, rfl⟩ | hc := exec_cases h
  · rfl
  · exact hc.buf a ha

/-- Settles O24: a fault writes the latch alone, and a command that completes writes what its tables allow. -/
theorem specialRegisterFrame : Obligations.SpecialRegisterFrame := by
  intro i s t h
  obtain ⟨c, -, rfl⟩ | hc := exec_cases h
  · exact ⟨fun _ => rfl, fun _ => rfl, fun _ => rfl, rfl, rfl, rfl⟩
  · exact ⟨hc.ov, hc.peak, hc.exp, hc.host⟩

/-! ### The invariant -/

/-- R39: with no fault latched, `CAUSE` and `ECMD` cleared and a canonical `BUF` the invariant holds. -/
theorem inv_of_cleared {s : State} (hbuf : s.buf.wf = true) (herr : s.err = false) (hcause : s.cause = 0)
    (hecmd : s.ecmd = 0) : Inv s :=
  ⟨hbuf, fun _ => ⟨hcause, hecmd⟩, fun h => by simp [herr] at h⟩

/-- Settles O15: after reset no fault is latched, and nothing of `BUF` is listed. -/
theorem resetMeetsTheInvariant : Obligations.ResetMeetsTheInvariant :=
  inv_of_cleared State.reset_buf_wf rfl rfl rfl

/-- The invariant speaks of the fault latch and of `BUF` only. -/
theorem Inv.of_latch_eq {s t : State} (hs : Inv s) (hbuf : s.buf.wf = true → t.buf.wf = true)
    (hlatch : t.err = s.err ∧ t.cause = s.cause ∧ t.ecmd = s.ecmd) : Inv t := by
  obtain ⟨herr, hcause, hecmd⟩ := hlatch
  refine ⟨hbuf hs.bufCanonical, fun h => ?_, fun h => ?_⟩
  · rw [hcause, hecmd]
    exact hs.noFaultRecorded (herr ▸ h)
  · rw [hcause, hecmd]
    exact hs.faultRecorded (herr ▸ h)

/-- R212: a fault keeps the invariant when its word can raise its cause. -/
theorem Inv.raiseFault {s : State} (hs : Inv s) {c : Cause} {w : Word} (h : faultRecord c.code w) :
    Inv (s.raiseFault c w) :=
  ⟨hs.bufCanonical, nofun, fun _ => h⟩

theorem faultRecord_of_raisable {i : Instr} {c : Cause} (h : raisable i c = true) : faultRecord c.code (encode i) := by
  have hd := decode_encode i
  cases c with
  | illegalCommand => contradiction
  | bufferRange => exact .inr (.inl ⟨rfl, i, hd, Bool.or_eq_true_iff.1 h⟩)
  | oddBase => exact .inr (.inr (.inl ⟨rfl, i, hd, h⟩))
  | badSpecialRegister => exact .inr (.inr (.inr ⟨rfl, i, hd, by simpa [raisable] using h⟩))

theorem exec_keepsInv {i : Instr} {s t : State} (hs : Inv s) (h : exec i s = .next t) : Inv t := by
  obtain ⟨c, hc, rfl⟩ | hc := exec_cases h
  · exact hs.raiseFault (faultRecord_of_raisable hc)
  · exact hs.of_latch_eq hc.bufCanonical hc.latch

theorem hostCmd_keepsInv {w : Word} {s t : State} (hs : Inv s) (h : hostCmd w s = .next t) : Inv t := by
  obtain ⟨-, rfl⟩ | ⟨-, hbad, rfl⟩ | ⟨-, i, -, hi⟩ := hostCmd_cases h
  · exact hs
  · exact hs.raiseFault (.inl ⟨rfl, hbad⟩)
  · exact exec_keepsInv hs hi

theorem State.writeSreg_latch (s : State) (r : WritableSReg) (v : Word) :
    (s.writeSreg r v).err = s.err ∧ (s.writeSreg r v).cause = s.cause ∧ (s.writeSreg r v).ecmd = s.ecmd := by
  cases r <;> exact ⟨rfl, rfl, rfl⟩

@[simp] theorem State.writeSreg_buf (s : State) (r : WritableSReg) (v : Word) : (s.writeSreg r v).buf = s.buf := by
  cases r <;> rfl

/-- R60: every transaction keeps the invariant. -/
theorem transact_keepsInv {x : Transaction} {s t : State} (hs : Inv s) (h : transact x s = .next t) : Inv t := by
  cases x with
  | cmd w => exact hostCmd_keepsInv hs h
  | reset =>
    obtain rfl := Host.Outcome.next.inj h
    exact inv_of_cleared State.reset_buf_wf rfl rfl rfl
  | readReg | readSreg | readBuf | writeReg =>
    obtain rfl := Host.Outcome.next.inj h
    exact hs.of_latch_eq id ⟨rfl, rfl, rfl⟩
  | writeSreg r v =>
    obtain rfl := Host.Outcome.next.inj h
    exact hs.of_latch_eq (by simp) (s.writeSreg_latch r v)
  | writeBuf a v =>
    obtain rfl := Host.Outcome.next.inj h
    exact hs.of_latch_eq (fun hbuf => Memory.write_wf v hbuf a.isLt) ⟨rfl, rfl, rfl⟩

/-- A step idles, or performs the transaction that the host issues. -/
theorem step_cases {s t : State} (h : step s = .next t) :
    t = s ∨ ∃ x rest, s.pending = x :: rest ∧ transact x (s.issue rest) = .next t := by
  cases hp : s.pending with
  | nil => exact .inl (Host.Outcome.next.inj ((step_idle hp).symm.trans h)).symm
  | cons x rest => exact .inr ⟨x, rest, rfl, (step_issue hp).symm.trans h⟩

/-- Settles O16: idling changes nothing, and every transaction keeps the invariant. -/
theorem stepKeepsTheInvariant : Obligations.StepKeepsTheInvariant := by
  intro s t hs h
  obtain rfl | ⟨x, rest, -, hx⟩ := step_cases h
  · exact hs
  · exact transact_keepsInv (s := s.issue rest) (hs.of_latch_eq id ⟨rfl, rfl, rfl⟩) hx

/-! ### `OV` is sticky (R24) -/

theorem hostCmd_clears_ov {w : Word} {s t : State} (hs : s.ov = true) (h : hostCmd w s = .next t) (ht : t.ov = false) :
    s.err = false ∧ ∃ i, decode w = .ok i ∧ clearsOv s i := by
  obtain ⟨-, rfl⟩ | ⟨-, -, rfl⟩ | ⟨herr, i, hd, hi⟩ := hostCmd_cases h
  · simp [hs] at ht
  · simp [hs] at ht
  · obtain ⟨c, -, rfl⟩ | hc := exec_cases hi
    · simp [hs] at ht
    · exact ⟨herr, i, hd, (hc.ovSticky hs).resolve_left (by simp [ht])⟩

/-- R24: the transactions that clear `OV`. -/
theorem transact_clears_ov {x : Transaction} {s t : State} (hs : s.ov = true) (h : transact x s = .next t)
    (ht : t.ov = false) :
    x = .reset ∨ (∃ v : Word, x = .writeSreg .status v ∧ v.toNat % 2 = 0) ∨
      (s.err = false ∧ ∃ w, x = .cmd w ∧ ∃ i, decode w = .ok i ∧ clearsOv s i) := by
  cases x with
  | reset => exact .inl rfl
  | cmd w =>
    obtain ⟨herr, hclears⟩ := hostCmd_clears_ov hs h ht
    exact .inr (.inr ⟨herr, w, rfl, hclears⟩)
  | writeSreg r v =>
    obtain rfl := Host.Outcome.next.inj h
    cases r with
    | status =>
      rw [State.writeSreg, State.setOv_ov, getLsbD_zero_eq, decide_eq_false_iff_not] at ht
      exact .inr (.inl ⟨v, rfl, Nat.mod_two_not_eq_one.1 ht⟩)
    | peak | exp => exact absurd (hs.symm.trans ht) nofun
  | readReg | readSreg | readBuf | writeReg | writeBuf =>
    obtain rfl := Host.Outcome.next.inj h
    exact absurd (hs.symm.trans ht) nofun

/-- Settles O18: an idle step keeps `OV`, and the transactions that clear it are those of the rule. -/
theorem overflowFlagIsSticky : Obligations.OverflowFlagIsSticky := by
  intro s t hs h ht
  obtain rfl | ⟨x, rest, hp, hx⟩ := step_cases h
  · simp [hs] at ht
  · refine ⟨x, rest, hp, (transact_clears_ov (s := s.issue rest) hs hx ht).imp_right (Or.imp_right ?_)⟩
    rintro ⟨herr, w, rfl, i, hd, rfl | ⟨rs1, rfl, heven⟩⟩
    · exact ⟨herr, w, rfl, .inl hd⟩
    · exact ⟨herr, w, rfl, .inr ⟨rs1, hd, heven⟩⟩

end Sys2Proof.Machine
end

section
/-! PROOFS. The special registers as the host and the commands read and write them, and `Reset`. -/

namespace Sys2Proof.Machine

/-- R28: `STATUS = OV + 2*ERR + 16*CAUSE`. -/
theorem statusWord_eq_ofNat (s : State) :
    s.statusWord = BitVec.ofNat 32 (s.ov.toNat + 2 * s.err.toNat + 16 * s.cause.toNat) := by
  have hcause := s.cause.isLt
  have hov := s.ov.toNat_lt
  have herr := s.err.toNat_lt
  apply BitVec.eq_of_toNat_eq
  simp only [State.statusWord, BitVec.toNat_append, BitVec.toNat_ofBool, BitVec.toNat_ofNat]
  rw [← Nat.shiftLeft_add_eq_or_of_lt (by omega), ← Nat.shiftLeft_add_eq_or_of_lt (by omega),
    ← Nat.shiftLeft_add_eq_or_of_lt (by decide), ← Nat.shiftLeft_add_eq_or_of_lt (by omega)]
  simp only [Nat.shiftLeft_eq]
  omega

/-- R29: bits 30:0 of a word. -/
theorem setWidth_eq_ofNat (v : Word) : v.setWidth 31 = BitVec.ofNat 31 v.toNat := by
  apply BitVec.eq_of_toNat_eq
  rw [BitVec.toNat_setWidth, BitVec.toNat_ofNat]

/-- R195: `MFS` writes what the special register of its number reads as. -/
theorem exec_mfs_of_some {n : Half} {r : SReg} (h : readableSreg n = some r) (rd : RegNum) (s : State) :
    exec (.mfs rd n) s = .next (s.setReg rd (s.readSreg r)) := by
  simp only [exec, execMfs, h]

/-- R196: `MTS` writes the special register of its number. -/
theorem exec_mts_of_some {n : Half} {r : WritableSReg} (h : writableSreg n = some r) (rs1 : RegNum) (s : State) :
    exec (.mts n rs1) s = .next (s.writeSreg r (s.reg rs1)) := by
  simp only [exec, execMts, h]

/-- Settles O39: numbers 0 to 3 name the four special registers. -/
theorem mfsReadsEachSpecialRegister : Obligations.MfsReadsEachSpecialRegister := by
  intro rd s
  rw [← statusWord_eq_ofNat, ← peakWord_eq_ofNat]
  exact ⟨exec_mfs_of_some (r := .status) rfl rd s, exec_mfs_of_some (r := .peak) rfl rd s,
    exec_mfs_of_some (r := .exp) rfl rd s, exec_mfs_of_some (r := .ecmd) rfl rd s⟩

/-- Settles O40: numbers 0 to 2 name the three that can be written. -/
theorem mtsWritesEachWritableRegister : Obligations.MtsWritesEachWritableRegister := by
  intro rs1 s
  rw [← getLsbD_zero_eq, ← setWidth_eq_ofNat]
  exact ⟨exec_mts_of_some (r := .status) rfl rs1 s, exec_mts_of_some (r := .peak) rfl rs1 s,
    exec_mts_of_some (r := .exp) rfl rs1 s⟩

/-- Settles O11: each read is the transaction's answer, with `STATUS` and `PEAK` as their bits. -/
theorem hostReadsAnswerAndChangeNothing : Obligations.HostReadsAnswerAndChangeNothing := by
  intro s rest
  rw [← statusWord_eq_ofNat, ← peakWord_eq_ofNat]
  exact ⟨fun _ => step_issue, step_issue, step_issue, step_issue, step_issue, fun _ => step_issue⟩

/-- R28, R39: `STATUS` is 0 after `Reset`. -/
theorem hostReset_statusWord (s : State) : (hostReset s).statusWord = 0 := by
  rw [statusWord_eq_ofNat]
  rfl

/-- Settles O13: the reset state, with nothing of the new `BUF` written. -/
theorem resetClearsEveryRegister : Obligations.ResetClearsEveryRegister := by
  intro s rest h
  exact ⟨hostReset (s.issue rest), step_issue h, State.reset_reg, rfl, rfl, rfl, hostReset_statusWord _, rfl, rfl, rfl, rfl, rfl,
    rfl, fun _ => rfl⟩

end Sys2Proof.Machine
end

section
/-! PROOFS. The radix-4 level (R141, R142) and its butterfly (R143). -/

namespace Sys2Proof.Machine

/-! ### The places of a level (R142) -/

/-- R142: the butterfly of group `g` and tap `j` of a level with groups of `4 * n2` points. -/
def groupButterfly (cfg : Config) (n2 : Nat) (zs : List Cplx) (g j : Nat) : Sat Quad :=
  butterfly cfg (4 * n2) j (point zs (g * (4 * n2) + j)) (point zs (g * (4 * n2) + j + n2))
    (point zs (g * (4 * n2) + j + 2 * n2)) (point zs (g * (4 * n2) + j + 3 * n2))

/-- R142: the place of output `k` of group `g` and tap `j` is of that group, that output and that tap. -/
theorem place_coordinates {n2 g j k : Nat} (hj : j < n2) (hk : k < 4) :
    (g * (4 * n2) + j + k * n2) / (4 * n2) = g ∧ (g * (4 * n2) + j + k * n2) % (4 * n2) / n2 = k ∧
      (g * (4 * n2) + j + k * n2) % (4 * n2) % n2 = j := by
  have hin : j + k * n2 < 4 * n2 := by nlinarith
  obtain ⟨hgroup, hmod⟩ : _ ∧ _ :=
    (Nat.div_mod_unique (show 0 < 4 * n2 by omega)).2 ⟨show j + k * n2 + 4 * n2 * g = g * (4 * n2) + j + k * n2 by ring, hin⟩
  rw [hgroup, hmod]
  exact ⟨rfl, (Nat.div_mod_unique (show 0 < n2 by omega)).2 ⟨by ring, hj⟩⟩

theorem levelPoint_place (cfg : Config) {n2 g j k : Nat} (sh : Nat) (zs : List Cplx) (hj : j < n2) (hk : k < 4) :
    levelPoint cfg (4 * n2) sh zs (g * (4 * n2) + j + k * n2) =
      ⟨cshift (quadOut (groupButterfly cfg n2 zs g j).val k) sh, (groupButterfly cfg n2 zs g j).ov⟩ := by
  obtain ⟨hg, hout, htap⟩ := place_coordinates (g := g) hj hk
  simp only [levelPoint, hg, hout, htap, Nat.mul_div_cancel_left n2 (show 0 < 4 by decide), groupButterfly]

/-- R142: every place of whole groups is that of one output of one butterfly. -/
theorem exists_place {n2 p len : Nat} (hdvd : 4 * n2 ∣ len) (hp : p < len) :
    ∃ g j k, j < n2 ∧ k < 4 ∧ (g + 1) * (4 * n2) ≤ len ∧ p = g * (4 * n2) + j + k * n2 := by
  obtain ⟨m, rfl⟩ := hdvd
  have hn2 : 0 < n2 := by
    by_contra h
    simp [Nat.eq_zero_of_not_pos h] at hp
  have hpos : 0 < 4 * n2 := by omega
  refine ⟨p / (4 * n2), p % (4 * n2) % n2, p % (4 * n2) / n2, Nat.mod_lt _ hn2, ?_, ?_, ?_⟩
  · rw [Nat.div_lt_iff_lt_mul hn2]
    exact Nat.mod_lt _ hpos
  · rw [Nat.mul_comm]
    exact Nat.mul_le_mul_left _ (Nat.div_lt_of_lt_mul hp)
  · rw [Nat.add_assoc, Nat.mod_add_div', Nat.div_add_mod']

theorem place_lt {n2 g j k len : Nat} (hj : j < n2) (hk : k < 4) (hg : (g + 1) * (4 * n2) ≤ len) :
    g * (4 * n2) + j + k * n2 < len := by nlinarith

theorem level_ov_iff (cfg : Config) {n2 : Nat} (sh : Nat) {zs : List Cplx} (hdvd : 4 * n2 ∣ zs.length) :
    (level cfg (4 * n2) sh zs).ov = true ↔
      ∃ g j, j < n2 ∧ (g + 1) * (4 * n2) ≤ zs.length ∧ (groupButterfly cfg n2 zs g j).ov = true := by
  rw [level_ov]
  constructor
  · rintro ⟨p, hp, hov⟩
    obtain ⟨g, j, k, hj, hk, hg, rfl⟩ := exists_place hdvd hp
    rw [levelPoint_place cfg sh zs hj hk] at hov
    exact ⟨g, j, hj, hg, hov⟩
  · rintro ⟨g, j, hj, hg, hov⟩
    refine ⟨g * (4 * n2) + j + 0 * n2, place_lt hj (by decide) hg, ?_⟩
    rw [levelPoint_place cfg sh zs hj (by decide)]
    exact hov

/-- Settles O51: place by place from `levelPoint_place`, and the engine by unrolling its shift list. -/
theorem levelStoresEachOutputInItsPlace : Obligations.LevelStoresEachOutputInItsPlace := by
  refine ⟨fun cfg n2 sh g j k zs hj hk hg => ⟨level_length .., ?place⟩, fun cfg n2 sh zs hdvd => level_ov_iff cfg sh hdvd,
    fun cfg sh0 sh1 sh2 sh3 zs hlen => ?long, fun cfg sh0 sh1 sh2 zs hlen => ?short⟩
  case place =>
    rw [level_point _ _ _ _ (place_lt hj hk hg), levelPoint_place cfg sh zs hj hk]
    rfl
  case long | short =>
    simp only [fft4, hlen, levels_cons, levels_nil, Bool.or_eq_true, Bool.or_false, Nat.reduceDiv, true_and]

/-! ### The butterfly (R143) -/

theorem csubJ_eq (a b : Cplx) :
    csubJ a b = ⟨⟨BitVec.ofInt 32 (clamp 32 (a.re.toInt + b.im.toInt)),
        BitVec.ofInt 32 (clamp 32 (a.im.toInt - b.re.toInt))⟩,
      outOfRange 32 (a.re.toInt + b.im.toInt) || outOfRange 32 (a.im.toInt - b.re.toInt)⟩ := by
  simp only [csubJ, sat32_eq, s32]

theorem caddJ_eq (a b : Cplx) :
    caddJ a b = ⟨⟨BitVec.ofInt 32 (clamp 32 (a.re.toInt - b.im.toInt)),
        BitVec.ofInt 32 (clamp 32 (a.im.toInt + b.re.toInt))⟩,
      outOfRange 32 (a.re.toInt - b.im.toInt) || outOfRange 32 (a.im.toInt + b.re.toInt)⟩ := by
  simp only [caddJ, sat32_eq, s32]

/-- R13: a clamped value is a word's. -/
theorem toInt_ofInt_clamp (x : Int) : (BitVec.ofInt 32 (clamp 32 x)).toInt = clamp 32 x := by
  rw [← sat32_val_toInt x, BitVec.ofInt_toInt]

theorem butterfly_tap_zero (cfg : Config) (n1 : Nat) (a b c d : Cplx) :
    butterfly cfg n1 0 a b c d = butterflySums a b c d := rfl

theorem butterfly_tap_ne_zero (cfg : Config) (n1 : Nat) {j : Nat} (hj : j ≠ 0) (a b c d : Cplx) :
    let e := 512 / n1 * j
    let q := butterflySums a b c d
    let y1 := cmulNeg q.val.y1 (romEntry cfg.tw e)
    let y2 := cmulNeg q.val.y2 (romEntry cfg.tw (2 * e))
    let y3 := cmulNeg q.val.y3 (romEntry cfg.tw (3 * e))
    butterfly cfg n1 j a b c d = ⟨⟨q.val.y0, y1.val, y2.val, y3.val⟩, q.ov || y1.ov || y2.ov || y3.ov⟩ := if_neg hj

theorem clamp_of_bounds {x : Int} (h : -(2 ^ 31) ≤ x ∧ x < 2 ^ 31) : clamp 32 x = x :=
  clamp_of_inRange (outOfRange_eq_false_iff.2 h)

theorem outOfRange_of_bounds {x : Int} (h : -(2 ^ 31) ≤ x ∧ x < 2 ^ 31) : outOfRange 32 x = false :=
  outOfRange_eq_false_iff.2 h

/-- Settles O52: tap 0 is the sums, whose clamps do nothing on small parts; another tap multiplies three of them. -/
theorem butterflyIsTheFourPointTransform : Obligations.ButterflyIsTheFourPointTransform := by
  refine ⟨fun cfg n1 a b c d => ?sums, fun cfg n1 j a b c d hj => ?taps, fun cfg n1 a b c d hsmall => ?exact⟩
  case sums =>
    simp only [butterfly_tap_zero, butterflySums, cadd_eq, csub_eq, csubJ_eq, caddJ_eq, toInt_ofInt_clamp, true_and,
      Bool.or_eq_true, List.mem_cons, List.not_mem_nil, or_false, exists_eq_or_imp, exists_eq_left, or_assoc]
  case taps =>
    simp only [butterfly_tap_zero, butterfly_tap_ne_zero cfg n1 hj, Bool.or_eq_true, or_assoc, true_and]
  case exact =>
    simp only [List.forall_mem_cons, List.not_mem_nil] at hsmall
    obtain ⟨ha, hb, hc, hd, -⟩ := hsmall
    simp only [butterfly_tap_zero, butterflySums, cadd_eq, csub_eq, csubJ_eq, caddJ_eq, toInt_ofInt_clamp]
    simp (disch := omega) only [clamp_of_bounds, outOfRange_of_bounds]
    exact ⟨rfl, by omega⟩

end Sys2Proof.Machine
end

section
/-! PROOFS. The ROM tables (R50 to R54) and the twiddle entries that the transforms read (R51). -/

namespace Sys2Proof.Machine

/-! ### The twiddle entries that are read (R51) -/

/-- R51: a butterfly reads the twiddle ROM at `e`, `2e` and `3e` only, `e = (512 / n1) * j`. -/
theorem butterfly_tw_congr (cfg : Config) {tw : List Coef} {n1 j : Nat}
    (h : ∀ k ∈ [1, 2, 3], romEntry tw (k * (512 / n1 * j)) = romEntry cfg.tw (k * (512 / n1 * j))) (a b c d : Cplx) :
    butterfly { cfg with tw := tw } n1 j a b c d = butterfly cfg n1 j a b c d := by
  obtain rfl | hj := Nat.eq_zero_or_pos j
  · rw [butterfly_tap_zero, butterfly_tap_zero]
  · have h1 := h 1 (by decide)
    rw [Nat.one_mul] at h1
    simp only [butterfly_tap_ne_zero _ n1 hj.ne', h1, h 2 (by decide), h 3 (by decide)]

/-- R51: the largest index is `384 - 1536 / n1`, which is 378 at the first level and less at the others. -/
theorem twiddle_index_le {n1 j k : Nat} (hn : n1 ∈ [256, 64, 16, 4]) (hj : j < n1 / 4) (hk : k ≤ 3) :
    k * (512 / n1 * j) ≤ 378 := by
  have hlast : ∀ n ∈ [256, 64, 16, 4], 3 * (512 / n * (n / 4 - 1)) ≤ 378 := by decide
  calc k * (512 / n1 * j) ≤ 3 * (512 / n1 * (n1 / 4 - 1)) :=
        Nat.mul_le_mul hk (Nat.mul_le_mul_left _ (Nat.le_sub_one_of_lt hj))
    _ ≤ 378 := hlast n1 hn

/-- R172: iteration `n` of the radix-2 stage reads the twiddle ROM at `n` only. -/
theorem radix2Pair_tw_congr (cfg : Config) {tw : List Coef} {n : Nat} (h : romEntry tw n = romEntry cfg.tw n) (r : Int)
    (zs : List Cplx) : radix2Pair { cfg with tw := tw } r zs n = radix2Pair cfg r zs n := by
  simp only [radix2Pair, h]

/-- R172: the radix-2 stage has 256 iterations, so it reads the twiddle ROM below 256 only. -/
theorem radix2_tw_congr (cfg : Config) {tw : List Coef} (h : ∀ n, n < nLong → romEntry tw n = romEntry cfg.tw n) (r : Int)
    (zs : List Cplx) : radix2 { cfg with tw := tw } r zs = radix2 cfg r zs := by
  have hpairs : (List.range nLong).map (radix2Pair { cfg with tw := tw } r zs) =
      (List.range nLong).map (radix2Pair cfg r zs) :=
    List.map_congr_left fun n hn => radix2Pair_tw_congr cfg (h n (List.mem_range.1 hn)) r zs
  simp only [radix2, hpairs]

/-! ### The check sums (R54)

They are of the printed numbers and evaluated by the kernel, each on its own. -/

theorem tw_length : config.tw.length = 384 := by decide +kernel

theorem rot_length : config.rot.length = 512 := by decide +kernel

theorem tw_cos_sum : (config.tw.map fun e => e.c.toInt).sum = -2653763 := by decide +kernel

theorem tw_sin_sum : (config.tw.map fun e => e.s.toInt).sum = 2686529 := by decide +kernel

theorem tw_packed_sum : (config.tw.map fun e => e.c.toNat * 2 ^ 16 + e.s.toNat).sum % 2 ^ 32 = 0x8264FE41 := by
  decide +kernel

theorem rot_cos_sum : (config.rot.map fun e => e.c.toInt).sum = -1 := by decide +kernel

theorem rot_sin_sum : (config.rot.map fun e => e.s.toInt).sum = -1 := by decide +kernel

theorem rot_packed_sum : (config.rot.map fun e => e.c.toNat * 2 ^ 16 + e.s.toNat).sum % 2 ^ 32 = 0x00FEFFFF := by
  decide +kernel

/-- Settles O60: the tables by evaluation; the indices that are formed are at most 378, and below 256 in the radix-2 stage. -/
theorem romTablesPassTheirChecks : Obligations.RomTablesPassTheirChecks := by
  refine ⟨tw_length, rot_length, tw_cos_sum, tw_sin_sum, tw_packed_sum, rot_cos_sum, rot_sin_sum, rot_packed_sum,
    by decide +kernel, by decide +kernel, fun cfg tw h n1 hn j hj => ?butterflies, fun cfg tw h => ?radix2⟩
  case butterflies =>
    refine butterfly_tw_congr cfg fun k hk => h _ (twiddle_index_le hn hj ?_)
    exact (by decide : ∀ k ∈ [1, 2, 3], k ≤ 3) k hk
  case radix2 => exact radix2_tw_congr cfg fun n hn => h n (Nat.le_of_lt_succ hn)

end Sys2Proof.Machine
end

section
/-! PROOFS. The family of 20_memory.md: the transactions of the host, the accesses to `BUF`, the checks of a run, and `MIXFFT`. -/

namespace Sys2Proof.Machine

/-! ### One step (R60, R61, R80) -/

/-- R80 steps 5 and 6: with no fault latched, the command that the word decodes to is executed. -/
theorem hostCmd_of_decode {w : Word} {i : Instr} {s : State} (herr : s.err = false) (hd : decode w = .ok i) :
    hostCmd w s = exec i s := by
  rw [hostCmd, herr, if_neg Bool.false_ne_true, hd]

/-- Settles O7: the step issues the transaction, which no latched fault refuses. -/
theorem stepRunsTheDecodedCommand : Obligations.StepRunsTheDecodedCommand :=
  fun s _ rest _ hp herr hd => (step_issue hp).trans (hostCmd_of_decode (s := s.issue rest) herr hd)

/-- R61, R214: a command word answers a next state, be it refused, illegal or executed. -/
theorem hostCmd_next (w : Word) (s : State) : ∃ t, hostCmd w s = .next t := by
  unfold hostCmd
  split
  · exact ⟨s, rfl⟩
  · split
    · exact ⟨_, rfl⟩
    · next i _ =>
      obtain ⟨t, ht, -⟩ := exec_outcome i s
      exact ⟨t, ht⟩

/-- R60: every transaction answers a next state. -/
theorem transact_next (x : Transaction) (s : State) : ∃ t, transact x s = .next t := by
  cases x with
  | cmd w => exact hostCmd_next w s
  | reset | readReg | writeReg | readSreg | writeSreg | readBuf | writeBuf => exact ⟨_, rfl⟩

/-- Settles O14: an idle step answers the same state, and every transaction answers one. -/
theorem stepAlwaysAnswersANextState : Obligations.StepAlwaysAnswersANextState := by
  intro s
  cases hp : s.pending with
  | nil => exact ⟨s, step_idle hp⟩
  | cons x rest =>
    rw [step_issue hp]
    exact transact_next x (s.issue rest)

/-- Settles O12: each write is its transaction's one update of the issued state, with `STATUS` and `PEAK` as their bits. -/
theorem hostWritesReachOneElement : Obligations.HostWritesReachOneElement := by
  intro s rest v
  rw [← getLsbD_zero_eq, ← setWidth_eq_ofNat]
  refine ⟨fun i hp => ⟨(s.issue rest).setReg i v, step_issue hp, rfl, fun j => ?register⟩, step_issue, step_issue, step_issue,
    fun a hp => ⟨(s.issue rest).setBufWord a.val v, step_issue hp, rfl, fun b => ?word⟩⟩
  case register =>
    rw [State.setReg_reg, State.issue_reg]
    exact if_congr eq_comm rfl rfl
  case word => rw [State.setBufWord_bufWord, State.issue_bufWord]

/-! ### The accesses to `BUF` (R64, R198, R199) -/

/-- R64: the effective address is the sum of the register and the signed immediate, modulo `2^32`. -/
theorem effectiveAddress_toNat (s : State) (rs1 : RegNum) (imm : Half) :
    ((s.effectiveAddress rs1 imm).toNat : Int) = ((s.reg rs1).toNat + imm.toInt) % 2 ^ 32 := by
  have hsext := BitVec.toInt_eq_toNat_cond (sext16 imm)
  rw [sext16_toInt] at hsext
  rw [State.effectiveAddress, BitVec.toNat_add, hsext]
  split <;> omega

theorem effectiveAddress_toNat_eq {s : State} {rs1 : RegNum} {imm : Half} {ea : Nat}
    (h : ((s.reg rs1).toNat + imm.toInt) % 2 ^ 32 = ea) : (s.effectiveAddress rs1 imm).toNat = ea :=
  Int.ofNat_inj.1 ((effectiveAddress_toNat s rs1 imm).trans h)

section
variable {s : State} {rs1 : RegNum} {imm : Half}

/-! An index inside `BUF` completes the command, an index outside it takes the fault. -/

theorem exec_ldw_inside (h : (s.effectiveAddress rs1 imm).toNat < bufWords) (rd : RegNum) :
    exec (.ldw rd imm rs1) s = .next (s.setReg rd (s.bufWord (s.effectiveAddress rs1 imm).toNat)) := if_pos h

theorem exec_ldw_outside (h : ¬(s.effectiveAddress rs1 imm).toNat < bufWords) (rd : RegNum) :
    exec (.ldw rd imm rs1) s = .next (s.raiseFault .bufferRange (encode (.ldw rd imm rs1))) := if_neg h

theorem exec_stw_inside (h : (s.effectiveAddress rs1 imm).toNat < bufWords) (rs2 : RegNum) :
    exec (.stw rs2 imm rs1) s = .next (s.setBufWord (s.effectiveAddress rs1 imm).toNat (s.reg rs2)) := if_pos h

theorem exec_stw_outside (h : ¬(s.effectiveAddress rs1 imm).toNat < bufWords) (rs2 : RegNum) :
    exec (.stw rs2 imm rs1) s = .next (s.raiseFault .bufferRange (encode (.stw rs2 imm rs1))) := if_neg h

end

/-- Settles O42: the word at the effective address is written to the destination. -/
theorem loadReadsTheWord : Obligations.LoadReadsTheWord := by
  intro rd rs1 imm s ea hea hin
  obtain rfl := effectiveAddress_toNat_eq hea
  exact exec_ldw_inside hin rd

/-- Settles O43: one word of `BUF` is written, at the effective address. -/
theorem storeWritesTheWord : Obligations.StoreWritesTheWord := by
  intro rs1 rs2 imm s ea hea hin
  obtain rfl := effectiveAddress_toNat_eq hea
  refine ⟨_, exec_stw_inside hin rs2, rfl, ?_, fun a ha => ?_, fun hwf => Memory.write_wf _ hwf hin⟩
  · rw [State.setBufWord_bufWord, if_pos rfl]
  · rw [State.setBufWord_bufWord, if_neg ha]

/-- Settles O44: both commands make the same check of the effective address. -/
theorem indexOutsideBufTakesFaultTwo : Obligations.IndexOutsideBufTakesFaultTwo := by
  intro r rs1 imm s ea hea hout
  obtain rfl := effectiveAddress_toNat_eq hea
  exact ⟨exec_ldw_outside (Nat.not_lt.2 hout) r, exec_stw_outside (Nat.not_lt.2 hout) r⟩

/-! ### The checks of a run (R65) -/

theorem runFault_of_odd {base : Word} (h : base.toNat % 2 = 1) (len : Nat) : runFault base len = some .oddBase := by
  rw [runFault, getLsbD_zero_eq, h]
  rfl

theorem runFault_of_even_outside {base : Word} {len : Nat} (heven : base.toNat % 2 = 0) (hout : bufWords < base.toNat + len) :
    runFault base len = some .bufferRange := by
  rw [runFault, getLsbD_zero_eq, heven]
  exact if_pos hout

theorem withRun_of_runFault {s : State} {rs1 : RegNum} {len : Nat} {c : Cause} (h : runFault (s.reg rs1) len = some c)
    (i : Instr) (effect : Nat → State → State) : withRun i rs1 len effect s = .next (s.raiseFault c (encode i)) := by
  rw [withRun, h]
  rfl

/-- R65, R213: the two checks of a command on a run, in their order. -/
theorem withRun_checks (i : Instr) (rs1 : RegNum) (len : Nat) (effect : Nat → State → State) (s : State) :
    ((s.reg rs1).toNat % 2 = 1 → withRun i rs1 len effect s = .next (s.raiseFault .oddBase (encode i))) ∧
    ((s.reg rs1).toNat % 2 = 0 → bufWords < (s.reg rs1).toNat + len →
      withRun i rs1 len effect s = .next (s.raiseFault .bufferRange (encode i))) :=
  ⟨fun hodd => withRun_of_runFault (runFault_of_odd hodd len) i effect,
    fun heven hout => withRun_of_runFault (runFault_of_even_outside heven hout) i effect⟩

/-- Settles O45: the four transforms make the checks of a run, each of its own length. -/
theorem transformBaseChecks : Obligations.TransformBaseChecks :=
  ⟨fun rs1 => withRun_checks (.fft4l rs1) rs1 512 _, fun rs1 => withRun_checks (.fft4s rs1) rs1 128 _,
    fun rs1 => withRun_checks (.mixfft rs1) rs1 1024 _, fun rs1 => withRun_checks (.postrot rs1) rs1 1024 _⟩

/-! ### The mixed-radix transform (R170 to R175) -/

/-- What stands at the even and at the odd places of a list of pairs. -/
theorem getElem?_flatMap_pair {α β : Type} (f g : α → β) (l : List α) (i : Nat) :
    (l.flatMap fun a => [f a, g a])[2 * i]? = l[i]?.map f ∧ (l.flatMap fun a => [f a, g a])[2 * i + 1]? = l[i]?.map g := by
  induction l generalizing i with
  | nil => simp
  | cons a l ih =>
    cases i with
    | zero => simp
    | succ i => simpa [Nat.mul_succ] using ih i

/-- R174: the low half stands at the even points of the new run, the high half at the odd ones. -/
theorem point_interleave (low high : List Cplx) {p : Nat} (hp : p < nLong) :
    point (interleave low high) (2 * p) = point low p ∧ point (interleave low high) (2 * p + 1) = point high p := by
  obtain ⟨heven, hodd⟩ := getElem?_flatMap_pair (point low) (point high) (List.range nLong) p
  rw [List.getElem?_range hp] at heven hodd
  constructor
  · rw [point, List.getD_eq_getElem?_getD, interleave, heven]
    rfl
  · rw [point, List.getD_eq_getElem?_getD, interleave, hodd]
    rfl

/-- R146: the OR over a run may start from any peak. -/
theorem foldl_mag (p : BitVec 31) (vs : List Word) :
    vs.foldl (fun p v => p ||| mag v) p = p ||| vs.foldl (fun p v => p ||| mag v) 0 := by
  induction vs generalizing p with
  | nil => simp
  | cons v vs ih =>
    rw [List.foldl_cons, List.foldl_cons, ih, ih (0 ||| mag v), BitVec.or_assoc]
    simp

theorem peakOf_append (zs ws : List Cplx) : peakOf (zs ++ ws) = peakOf zs ||| peakOf ws := by
  rw [peakOf, pointWords, List.flatMap_append, List.foldl_append, foldl_mag]
  rfl

theorem peakOf_cons (z : Cplx) (zs : List Cplx) : peakOf (z :: zs) = peakOf [z] ||| peakOf zs := peakOf_append [z] zs

/-- R146: the peak of two lists of points, taken in turns, is the peak of both. -/
theorem peakOf_flatMap_pair {α : Type} (f g : α → Cplx) (l : List α) :
    peakOf (l.flatMap fun a => [f a, g a]) = peakOf (l.map f) ||| peakOf (l.map g) := by
  induction l with
  | nil => simp [peakOf, pointWords]
  | cons a l ih =>
    rw [List.flatMap_cons, peakOf_append, ih, peakOf_cons (f a) [g a], List.map_cons, List.map_cons,
      peakOf_cons (f a) (l.map f), peakOf_cons (g a) (l.map g)]
    ac_rfl

theorem map_point_range {zs : List Cplx} {n : Nat} (h : zs.length = n) : (List.range n).map (point zs) = zs := by
  subst h
  refine List.ext_getElem (by simp) fun i _ hi => ?_
  simp [point, hi]

/-- R175: the peak of the interleaved run is the peak of both halves. -/
theorem peakOf_interleave {low high : List Cplx} (hlow : low.length = nLong) (hhigh : high.length = nLong) :
    peakOf (interleave low high) = peakOf low ||| peakOf high := by
  rw [interleave, peakOf_flatMap_pair, map_point_range hlow, map_point_range hhigh]

theorem mixTransform_peak (cfg : Config) (r : Int) (zs : List Cplx) :
    (mixTransform cfg r zs).val.2 = peakOf (mixTransform cfg r zs).val.1 :=
  (peakOf_interleave (by rw [fft4_length, radix2_low_length]) (by rw [fft4_length, radix2_high_length])).symm

/-- R170: the new run of `MIXFFT` and its saturations. -/
def mixOutput (cfg : Config) (r : Int) (zs : List Cplx) : Sat (List Cplx) :=
  ⟨(mixTransform cfg r zs).val.1, (mixTransform cfg r zs).ov⟩

/-- R173, R174: where the points of the two transformed halves stand in the new run. -/
theorem mixOutput_point (cfg : Config) (r : Int) (zs : List Cplx) {p : Nat} (hp : p < nLong) :
    let h := (radix2 cfg r zs).val
    point (mixOutput cfg r zs).val (2 * p) = point (fft4 cfg (longSchedule cfg) h.1).val p ∧
      point (mixOutput cfg r zs).val (2 * p + 1) = point (fft4 cfg (longSchedule cfg) h.2).val p :=
  point_interleave _ _ hp

/-- R175: `MIXFFT` stores its run as the two engines' commands do. -/
theorem mixfftEffect_eq (base : Nat) (s : State) :
    let r : Int := max (4 - clrsb (BitVec.ofNat 32 s.peak.toNat)) (-16)
    mixfftEffect config base s =
      s.storeTransform base (mixOutput config r (s.points base 512)) (BitVec.ofInt 32 (r + 8)) := by
  intro r
  have hr : mixShift config s.peakWord = r := by
    rw [peakWord_eq_ofNat]
    rfl
  rw [mixfftEffect, hr, mixTransform_peak]
  rfl

/-- Settles O48: on a legal run `MIXFFT` stores the two halves that the engine leaves, interleaved. -/
theorem mixedTransformCompletes : Obligations.MixedTransformCompletes := by
  intro rs1 s hrun base r h lo hi
  have hexec := (withRun_of_legalRun hrun (.mixfft rs1) (mixfftEffect config)).trans (congrArg _ (mixfftEffect_eq base s))
  obtain ⟨hplaces, hov, hpeak, hexp, houtside, hrest⟩ :=
    storeTransform_spec s base (out := mixOutput config r (s.points base 512)) (BitVec.ofInt 32 (r + 8)) (n := 512)
      (mixTransform_length ..)
  refine ⟨_, hexec, fun p hp => ?places, hov.trans ?overflow, hpeak, hexp, houtside, hrest⟩
  case places =>
    obtain ⟨hlow, hhigh⟩ := mixOutput_point config r (s.points base 512) hp
    obtain ⟨hlowRe, hlowIm⟩ := hplaces (2 * p) (by omega)
    obtain ⟨hhighRe, hhighIm⟩ := hplaces (2 * p + 1) (by omega)
    rw [hlow, show base + 2 * (2 * p) = base + 4 * p by omega] at hlowRe hlowIm
    rw [hhigh, show base + 2 * (2 * p + 1) = base + 4 * p + 2 by omega] at hhighRe hhighIm
    exact ⟨hlowRe, hlowIm, hhighRe, hhighIm⟩
  case overflow =>
    change (s.ov || (h.ov || lo.ov || hi.ov)) = _
    simp only [Bool.or_assoc]

end Sys2Proof.Machine
end

section
/-! PROOFS. The family of 30_encoding.md: what the decoder does with a word, said once by the format of its opcode; the round
trips, the opcode table and the illegal words follow. -/

namespace Sys2Proof.Machine

/-! ### The decoder by the format of the opcode (R80, R83, R84) -/

/-- R84, column "format": the format of an opcode, if it is assigned. -/
def opcodeFormat : Nat → Option Format
  | 0x00 | 0x07 => some formatN
  | 0x01 | 0x02 | 0x03 => some formatDI
  | 0x04 => some formatSI
  | 0x05 => some formatDSI
  | 0x06 => some formatSSI
  | 0x08 | 0x09 | 0x11 | 0x15 => some formatDS
  | 0x0A | 0x0B | 0x0C | 0x0D | 0x0E | 0x0F | 0x10 | 0x12 | 0x13 | 0x14 => some formatDSS
  | 0x18 | 0x19 | 0x1A | 0x1B => some formatS
  | _ => none

/-- R85: the word with the fields of `w` that the format uses, the others zero. -/
def usedWord (f : Format) (op : BitVec 6) (w : Word) : Word :=
  commandWord op (bif f.rd then fieldRd w else 0) (bif f.rs1 then fieldRs1 w else 0) (bif f.rs2 then fieldRs2 w else 0)
    (bif f.imm then fieldImm w else 0)

/-- R80 steps 2 to 4: what the decoder answers by the format of the opcode. A word of an unassigned opcode is refused; any other
is checked against the format, for a command whose word is made of the fields that the format uses. -/
def FollowsFormat (w : Word) (r : Except DecodeError Instr) : Prop :=
  (opcodeFormat (fieldOp w).toNat = none ∧ r = .error .unassignedOpcode) ∨
    ∃ f i, opcodeFormat (fieldOp w).toNat = some f ∧ r = accept f w i ∧ encode i = usedWord f (fieldOp w) w

theorem followsFormat_accept {w : Word} {f : Format} {i : Instr} {n : Nat} (hop : (fieldOp w).toNat = n)
    (hf : opcodeFormat n = some f) (henc : encode i = usedWord f (BitVec.ofNat 6 n) w) : FollowsFormat w (accept f w i) := by
  subst hop
  rw [BitVec.ofNat_toNat, BitVec.setWidth_eq] at henc
  exact .inr ⟨f, i, hf, rfl, henc⟩

/-- R84: the decoder and the formats agree on each of the 26 assigned opcodes, and on the unassigned ones. -/
theorem decode_followsFormat (w : Word) : FollowsFormat w (decode w) := by
  unfold decode
  split
  case h_27 =>
    refine .inl ⟨?_, rfl⟩
    unfold opcodeFormat
    split
    case h_27 => rfl
    all_goals contradiction
  all_goals
    rename_i hop
    exact followsFormat_accept hop rfl rfl

/-- R85: every field that the format does not use is zero. -/
theorem unusedFieldNonzero_eq_false_iff (f : Format) (w : Word) :
    unusedFieldNonzero f w = false ↔
      (f.rd = false → fieldRd w = 0) ∧ (f.rs1 = false → fieldRs1 w = 0) ∧ (f.rs2 = false → fieldRs2 w = 0) ∧
        (f.imm = false → fieldImm w = 0) := by
  simp [unusedFieldNonzero, and_assoc]

/-- R80 step 4: the two checks of a word against its format. -/
theorem accept_eq_ok_iff {f : Format} {w : Word} {i j : Instr} :
    accept f w i = .ok j ↔ fieldZ w = 0 ∧ unusedFieldNonzero f w = false ∧ i = j := by
  unfold accept
  split
  · next hz => exact ⟨nofun, fun h => absurd h.1 hz⟩
  · next hz =>
    split
    · next hunused => simp [hunused]
    · next hunused => simpa [hunused] using fun _ => not_not.1 hz

theorem exists_accept_eq_error_iff {f : Format} {w : Word} {i : Instr} :
    (∃ e, accept f w i = .error e) ↔ fieldZ w ≠ 0 ∨ unusedFieldNonzero f w = true := by
  unfold accept
  split
  · next hz => exact ⟨fun _ => .inl hz, fun _ => ⟨_, rfl⟩⟩
  · next hz =>
    split
    · next hunused => exact ⟨fun _ => .inr hunused, fun _ => ⟨_, rfl⟩⟩
    · next hunused => exact ⟨nofun, fun h => (h.elim hz hunused).elim⟩

theorem cond_zero_eq_self {α : Type} [Zero α] {b : Bool} {x : α} (h : b = false → x = 0) : (bif b then x else 0) = x := by
  cases b with
  | false => exact (h rfl).symm
  | true => rfl

/-- R85: a word whose unused fields are zero is the word of its used fields. -/
theorem usedWord_eq_self {f : Format} {w : Word} (hz : fieldZ w = 0) (hunused : unusedFieldNonzero f w = false) :
    usedWord f (fieldOp w) w = w := by
  obtain ⟨hrd, hrs1, hrs2, himm⟩ := (unusedFieldNonzero_eq_false_iff f w).1 hunused
  rw [usedWord, cond_zero_eq_self hrd, cond_zero_eq_self hrs1, cond_zero_eq_self hrs2, cond_zero_eq_self himm,
    commandWord_fields hz]

/-! ### The two round trips -/

/-- Settles O1: field by field, the encoded word is the one that the decoder's format accepts. -/
theorem decodeInvertsEncode : Obligations.DecodeInvertsEncode := decode_encode

/-- R84, R85, R87: a word of an assigned opcode, with `z` and the unused fields zero, is the one word of a command. -/
theorem decode_of_format {w : Word} {f : Format} (hf : opcodeFormat (fieldOp w).toNat = some f) (hz : fieldZ w = 0)
    (hunused : unusedFieldNonzero f w = false) : ∃ i, decode w = .ok i ∧ encode i = w := by
  obtain ⟨hnone, -⟩ | ⟨g, i, hg, hdec, henc⟩ := decode_followsFormat w
  · simp [hnone] at hf
  · obtain rfl : g = f := Option.some.inj (hg.symm.trans hf)
    exact ⟨i, hdec.trans (accept_eq_ok_iff.2 ⟨hz, hunused, rfl⟩), henc.trans (usedWord_eq_self hz hunused)⟩

theorem encode_of_decode {w : Word} {i : Instr} (h : decode w = .ok i) : encode i = w := by
  obtain ⟨-, hdec⟩ | ⟨f, j, -, hdec, henc⟩ := decode_followsFormat w
  · simp [hdec] at h
  · obtain ⟨hz, hunused, rfl⟩ := accept_eq_ok_iff.1 (hdec.symm.trans h)
    exact henc.trans (usedWord_eq_self hz hunused)

/-- Settles O2: the word is made of the fields that its format uses, and so is the command's. -/
theorem encodeInvertsDecode : Obligations.EncodeInvertsDecode := fun _ _ => encode_of_decode

/-! ### The opcode table (R84) -/

theorem matchesTableRow (i : Instr) : Laws.MatchesTableRow.Statement i := by
  cases i with
  | nop => exact Laws.MatchesTableRow.nop
  | li => exact Laws.MatchesTableRow.li ..
  | lih => exact Laws.MatchesTableRow.lih ..
  | mfs => exact Laws.MatchesTableRow.mfs ..
  | mts => exact Laws.MatchesTableRow.mts ..
  | ldw => exact Laws.MatchesTableRow.ldw ..
  | stw => exact Laws.MatchesTableRow.stw ..
  | clrov => exact Laws.MatchesTableRow.clrov
  | norm32 => exact Laws.MatchesTableRow.norm32 ..
  | norm16 => exact Laws.MatchesTableRow.norm16 ..
  | add32 => exact Laws.MatchesTableRow.add32 ..
  | sub32 => exact Laws.MatchesTableRow.sub32 ..
  | add16 => exact Laws.MatchesTableRow.add16 ..
  | sub16 => exact Laws.MatchesTableRow.sub16 ..
  | mul16 => exact Laws.MatchesTableRow.mul16 ..
  | mac16 => exact Laws.MatchesTableRow.mac16 ..
  | msu16 => exact Laws.MatchesTableRow.msu16 ..
  | rnd16 => exact Laws.MatchesTableRow.rnd16 ..
  | mulq => exact Laws.MatchesTableRow.mulq ..
  | shl32 => exact Laws.MatchesTableRow.shl32 ..
  | shr32 => exact Laws.MatchesTableRow.shr32 ..
  | mov => exact Laws.MatchesTableRow.mov ..
  | fft4l => exact Laws.MatchesTableRow.fft4l ..
  | fft4s => exact Laws.MatchesTableRow.fft4s ..
  | mixfft => exact Laws.MatchesTableRow.mixfft ..
  | postrot => exact Laws.MatchesTableRow.postrot ..

/-- Bits that a mask fixes, its complement zero on them, are kept by the mask. -/
theorem extractLsb'_and_of_fixed {v m : Word} {start len : Nat} (h : (~~~m).extractLsb' start len = 0) :
    (v &&& m).extractLsb' start len = v.extractLsb' start len := by
  have hsplit : v = (v &&& m) ||| (v &&& ~~~m) := by
    rw [← BitVec.and_or_distrib_left, BitVec.or_not_self, BitVec.and_allOnes]
  conv_rhs => rw [hsplit]
  rw [BitVec.extractLsb'_or, BitVec.extractLsb'_and (y := ~~~m), h]
  simp

section
variable {w m : Word}

/-! A field whose bits the mask fixes all. -/

theorem fieldOp_and (h : fieldOp (~~~m) = 0) : fieldOp (w &&& m) = fieldOp w := extractLsb'_and_of_fixed h

theorem fieldZ_and (h : fieldZ (~~~m) = 0) : fieldZ (w &&& m) = fieldZ w := extractLsb'_and_of_fixed h

theorem fieldRd_and (h : fieldRd (~~~m) = 0) : fieldRd (w &&& m) = fieldRd w :=
  congrArg BitVec.toFin (extractLsb'_and_of_fixed (congrArg BitVec.ofFin h))

theorem fieldRs1_and (h : fieldRs1 (~~~m) = 0) : fieldRs1 (w &&& m) = fieldRs1 w :=
  congrArg BitVec.toFin (extractLsb'_and_of_fixed (congrArg BitVec.ofFin h))

theorem fieldRs2_and (h : fieldRs2 (~~~m) = 0) : fieldRs2 (w &&& m) = fieldRs2 w :=
  congrArg BitVec.toFin (extractLsb'_and_of_fixed (congrArg BitVec.ofFin h))

theorem fieldImm_and (h : fieldImm (~~~m) = 0) : fieldImm (w &&& m) = fieldImm w := extractLsb'_and_of_fixed h

end

/-- R84, R85: under a mask that fixes the unused fields of a format, a word has them zero when it had. -/
theorem unusedFieldNonzero_of_and {f : Format} {w m : Word} (hm : unusedFieldNonzero f (~~~m) = false)
    (h : unusedFieldNonzero f (w &&& m) = false) : unusedFieldNonzero f w = false := by
  rw [unusedFieldNonzero_eq_false_iff] at hm h ⊢
  obtain ⟨mrd, mrs1, mrs2, mimm⟩ := hm
  obtain ⟨hrd, hrs1, hrs2, himm⟩ := h
  exact ⟨fun hu => (fieldRd_and (mrd hu)).symm.trans (hrd hu), fun hu => (fieldRs1_and (mrs1 hu)).symm.trans (hrs1 hu),
    fun hu => (fieldRs2_and (mrs2 hu)).symm.trans (hrs2 hu), fun hu => (fieldImm_and (mimm hu)).symm.trans (himm hu)⟩

/-- R84: a row's mask fixes the opcode, `z` and the fields that the format of its opcode does not use; its pattern has them zero
but for the opcode. -/
theorem opcodeTable_fixes : ∀ row ∈ opcodeTable, ∃ f ∈ opcodeFormat (fieldOp row.pattern).toNat,
    (fieldOp (~~~row.mask) = 0 ∧ fieldZ (~~~row.mask) = 0 ∧ unusedFieldNonzero f (~~~row.mask) = false) ∧
      fieldZ row.pattern = 0 ∧ unusedFieldNonzero f row.pattern = false := by
  decide

/-- R84: each opcode and each mnemonic has one row. -/
theorem opcodeTable_rows_distinct :
    (opcodeTable.map fun row => fieldOp row.pattern).Nodup ∧ (opcodeTable.map OpcodeRow.mnemonic).Nodup := by
  decide

section
variable {row : OpcodeRow} {w : Word}

theorem fieldOp_of_matches (hrow : row ∈ opcodeTable) (h : w &&& row.mask = row.pattern) :
    fieldOp w = fieldOp row.pattern := by
  obtain ⟨_, -, ⟨hop, -⟩, -⟩ := opcodeTable_fixes row hrow
  rw [← h, fieldOp_and hop]

/-- R84: a word that matches a row is the one word of a command. -/
theorem decode_of_matches (hrow : row ∈ opcodeTable) (h : w &&& row.mask = row.pattern) :
    ∃ i, decode w = .ok i ∧ encode i = w := by
  obtain ⟨f, hf, ⟨-, mz, munused⟩, pz, punused⟩ := opcodeTable_fixes row hrow
  have hz : fieldZ w = 0 := by rw [← fieldZ_and mz, h, pz]
  exact decode_of_format (by rwa [fieldOp_of_matches hrow h]) hz (unusedFieldNonzero_of_and munused (by rwa [h]))

end

/-- Settles O3: a command's word matches the row of its mnemonic, and rows of one opcode, or of one mnemonic, are one row. -/
theorem wordIsCommandOfTheRowItMatches : Obligations.WordIsCommandOfTheRowItMatches := by
  intro row hrow w
  obtain ⟨hopcodes, hmnemonics⟩ := opcodeTable_rows_distinct
  constructor
  · intro h
    obtain ⟨i, hdec, rfl⟩ := decode_of_matches hrow h
    obtain ⟨row', hrow', hmnemonic, hmatch⟩ := matchesTableRow i
    obtain rfl : row' = row := List.inj_on_of_nodup_map hopcodes hrow' hrow
      ((fieldOp_of_matches hrow' hmatch).symm.trans (fieldOp_of_matches hrow h))
    exact ⟨i, hdec, hmnemonic.symm⟩
  · rintro ⟨i, hdec, hi⟩
    obtain ⟨row', hrow', hmnemonic, hmatch⟩ := matchesTableRow i
    obtain rfl : row' = row := List.inj_on_of_nodup_map hmnemonics hrow' hrow (hmnemonic.trans hi)
    rwa [encode_of_decode hdec] at hmatch

/-! ### The illegal words (R85, R87) -/

/-- R80 steps 3 and 4: the words that the decoder refuses, by the format of their opcode. -/
theorem exists_decode_eq_error_iff (w : Word) :
    (∃ e, decode w = .error e) ↔ opcodeFormat (fieldOp w).toNat = none ∨ fieldZ w ≠ 0 ∨
      ∃ f ∈ opcodeFormat (fieldOp w).toNat, unusedFieldNonzero f w = true := by
  obtain ⟨hnone, hdec⟩ | ⟨f, i, hf, hdec, -⟩ := decode_followsFormat w
  · simp [hnone, hdec]
  · simp [hf, hdec, exists_accept_eq_error_iff]

/-- R85: the four fields that a format can leave unused. -/
theorem exists_unusedFieldNonzero_iff (o : Option Format) (w : Word) :
    (∃ f ∈ o, unusedFieldNonzero f w = true) ↔
      (fieldRd w ≠ 0 ∧ ∃ f ∈ o, f.rd = false) ∨ (fieldRs1 w ≠ 0 ∧ ∃ f ∈ o, f.rs1 = false) ∨
        (fieldRs2 w ≠ 0 ∧ ∃ f ∈ o, f.rs2 = false) ∨ (fieldImm w ≠ 0 ∧ ∃ f ∈ o, f.imm = false) := by
  cases o with
  | none => simp
  | some f => simp [unusedFieldNonzero, or_assoc, and_comm]

/-- R83, R87: the unassigned opcodes, and for each field the opcodes that do not use it. -/
theorem opcodeFormat_columns : ∀ op : BitVec 6,
    (opcodeFormat op.toNat = none ↔ op.toNat = 0x16 ∨ op.toNat = 0x17 ∨ 0x1C ≤ op.toNat) ∧
    ((∃ f ∈ opcodeFormat op.toNat, f.rd = false) ↔ op.toNat ∈ [0x00, 0x04, 0x06, 0x07, 0x18, 0x19, 0x1A, 0x1B]) ∧
    ((∃ f ∈ opcodeFormat op.toNat, f.rs1 = false) ↔ op.toNat ∈ [0x00, 0x01, 0x02, 0x03, 0x07]) ∧
    ((∃ f ∈ opcodeFormat op.toNat, f.rs2 = false) ↔
      op.toNat ∈ [0x00, 0x01, 0x02, 0x03, 0x04, 0x05, 0x07, 0x08, 0x09, 0x11, 0x15, 0x18, 0x19, 0x1A, 0x1B]) ∧
    ((∃ f ∈ opcodeFormat op.toNat, f.imm = false) ↔
      op.toNat ∈ [0x00, 0x07, 0x08, 0x09, 0x0A, 0x0B, 0x0C, 0x0D, 0x0E, 0x0F, 0x10, 0x11, 0x12, 0x13, 0x14, 0x15, 0x18, 0x19,
        0x1A, 0x1B]) := by
  decide

/-! R82: the fields by arithmetic on the word. -/

theorem fieldOp_toNat (w : Word) : (fieldOp w).toNat = w.toNat / 2 ^ 26 := by
  rw [fieldOp, BitVec.extractLsb'_toNat, Nat.shiftRight_eq_div_pow]
  omega

theorem toFin_extractLsb'_eq_zero_iff (w : Word) (start : Nat) :
    (w.extractLsb' start 3).toFin = (0 : RegNum) ↔ w.toNat / 2 ^ start % 8 = 0 := by
  rw [Fin.ext_iff, BitVec.val_toFin, BitVec.extractLsb'_toNat, Nat.shiftRight_eq_div_pow]
  rfl

theorem fieldZ_ne_zero_iff (w : Word) : fieldZ w ≠ 0 ↔ w.toNat / 2 ^ 16 % 2 = 1 := by
  rw [Ne, ← BitVec.toNat_inj, fieldZ, BitVec.extractLsb'_toNat, Nat.shiftRight_eq_div_pow]
  exact Nat.mod_two_ne_zero

theorem fieldImm_eq_zero_iff (w : Word) : fieldImm w = 0 ↔ w.toNat % 2 ^ 16 = 0 := by
  rw [← BitVec.toNat_inj, fieldImm, BitVec.extractLsb'_toNat, Nat.shiftRight_zero]
  rfl

/-- Settles O4: what the decoder refuses by the format, with the formats and the fields as arithmetic on the word. -/
theorem illegalWordsAreExactlyThoseOfTheRule : Obligations.IllegalWordsAreExactlyThoseOfTheRule := by
  intro w op rd rs1 rs2 z imm
  obtain ⟨hnone, hrd, hrs1, hrs2, himm⟩ := opcodeFormat_columns (fieldOp w)
  rw [exists_decode_eq_error_iff, exists_unusedFieldNonzero_iff, hnone, hrd, hrs1, hrs2, himm, fieldOp_toNat,
    fieldZ_ne_zero_iff, Ne, Ne, Ne, Ne, fieldRd, fieldRs1, fieldRs2, toFin_extractLsb'_eq_zero_iff, toFin_extractLsb'_eq_zero_iff,
    toFin_extractLsb'_eq_zero_iff, fieldImm_eq_zero_iff]

/-! ### `LI32` (R90) -/

theorem State.setReg_setReg (s : State) (i : RegNum) (u v : Word) : (s.setReg i u).setReg i v = s.setReg i v := by
  simp [State.setReg]

theorem setWidth_sext16 (h : Half) : (sext16 h).setWidth 16 = h := by
  rw [← BitVec.signExtend_eq_setWidth_of_le _ (by decide)]
  apply BitVec.eq_of_toInt_eq
  rw [BitVec.toInt_signExtend_eq_toInt_bmod_of_le _ (by decide), sext16_toInt]
  exact BitVec.toInt_bmod_cancel h

/-- R90: a word is its high half above its low half. -/
theorem high_append_low (v : Word) : v.extractLsb' 16 16 ++ v.setWidth 16 = v := by
  rw [BitVec.setWidth_eq_extractLsb' (by decide)]
  exact BitVec.extractLsb'_append_extractLsb' (len := 16)

/-- R192: `LIH` writes its immediate above the low half of its register. -/
theorem exec_lih (rd : RegNum) (imm : Half) (s : State) :
    exec (.lih rd imm) s = .next (s.setReg rd (imm ++ (s.reg rd).setWidth 16)) := rfl

/-- Settles O6: `LIH` writes the register that `LI` wrote, and keeps of it the low half alone. -/
theorem li32LoadsAnyConstant : Obligations.Li32LoadsAnyConstant := by
  intro rd v s
  refine ⟨v.setWidth 16, v.extractLsb' 16 16, rfl, s.setReg rd (sext16 (v.setWidth 16)), rfl, ?_⟩
  rw [exec_lih, State.setReg_reg_same, setWidth_sext16, high_append_low, State.setReg_setReg]

/-! ### A word that is not executed (R80 steps 1 to 4) -/

/-- R80 steps 3 and 4, R87: with no fault latched, a word that is no command takes the fault with cause 1. -/
theorem hostCmd_of_decode_error {w : Word} {e : DecodeError} {s : State} (herr : s.err = false) (hd : decode w = .error e) :
    hostCmd w s = .next (s.raiseFault .illegalCommand w) := by
  rw [hostCmd, herr, if_neg Bool.false_ne_true, hd]

/-- R80 step 1, R214: a latched fault refuses every word. -/
theorem hostCmd_of_err {s : State} (herr : s.err = true) (w : Word) : hostCmd w s = .next s := by
  rw [hostCmd, if_pos herr]

/-- Settles O8: the step issues the transaction, whose word the decoder refuses. -/
theorem illegalWordTakesFaultOne : Obligations.IllegalWordTakesFaultOne :=
  fun s _ rest _ hp herr hd => (step_issue hp).trans (hostCmd_of_decode_error (s := s.issue rest) herr hd)

/-- Settles O9: the step issues the transaction, whose word the latched fault refuses. -/
theorem faultedCoreRefusesEveryCommand : Obligations.FaultedCoreRefusesEveryCommand :=
  fun s w rest hp herr => (step_issue hp).trans (hostCmd_of_err (s := s.issue rest) herr w)

end Sys2Proof.Machine
end

section
/-! PROOFS. The leading-bit counters of R101 and R102, and the words that the spec writes out. -/

namespace Sys2Proof.Machine

/-! ### NORM32 and NORM16 (R100 to R102) -/

/-- R83, R84: the word of a command of format `DS`. -/
theorem commandWord_formatDS (op : BitVec 6) (rd rs1 : RegNum) :
    commandWord op rd rs1 0 0 = BitVec.ofNat 32 (op.toNat * 2 ^ 26 + rd.val * 2 ^ 23 + rs1.val * 2 ^ 20) := by
  rw [commandWord_eq_ofNat]
  simp

theorem exec_norm32 (rd rs1 : RegNum) (s : State) :
    exec (.norm32 rd rs1) s = .next (s.setReg rd (BitVec.ofNat 32 (clrsb (s.reg rs1)))) := rfl

theorem exec_norm16 (rd rs1 : RegNum) (s : State) :
    exec (.norm16 rd rs1) s = .next (s.setReg rd (BitVec.ofNat 32 (clrsb ((s.reg rs1).setWidth 16)))) := rfl

/-- R100: no shift above the count, up to the width less 1, stays in range. -/
theorem shift_above_clrsb_outOfRange {w m : Nat} {v : BitVec w} (hm : clrsb v < m) (hw : m ≤ w - 1) :
    outOfRange w (v.toInt * 2 ^ m) = true := by
  rw [← Bool.not_eq_false, shift_inRange_iff v hw]
  exact Nat.not_le_of_lt hm

/-- Settles O25: `NORM32` writes the count of the source, which is the largest shift that stays in 32 bits. -/
theorem norm32WritesTheLargestSafeShift : Obligations.Norm32WritesTheLargestSafeShift :=
  fun rd rs1 s => ⟨commandWord_formatDS 0x08 rd rs1, clrsb (s.reg rs1), clrsb_le _, exec_norm32 rd rs1 s,
    shift_by_clrsb_inRange _, fun _ => shift_above_clrsb_outOfRange⟩

/-- Settles O26: `NORM16` writes the count of the source's low half, the largest shift that stays in 16 bits. -/
theorem norm16WritesTheLargestSafeShift : Obligations.Norm16WritesTheLargestSafeShift :=
  fun rd rs1 s => ⟨commandWord_formatDS 0x09 rd rs1, clrsb ((s.reg rs1).setWidth 16), clrsb_le _, exec_norm16 rd rs1 s,
    shift_by_clrsb_inRange _, fun _ => shift_above_clrsb_outOfRange⟩

/-! ### The words that the rules write out (R89) -/

theorem decode_of_encode {w : Word} {i : Instr} (h : encode i = w) : decode w = .ok i := h ▸ decode_encode i

/-- Settles O5: each word is the encoding of the command beside it, so the decoder gives that command back. -/
theorem wordsOfTheSpecDecode : Obligations.WordsOfTheSpecDecode := by
  refine ⟨?_, ?_, ?_, ?_, ?_, ?_, ?_, ?_, ?_, ?_, ?_, ?_⟩ <;> exact decode_of_encode rfl

end Sys2Proof.Machine
end

section
/-! PROOFS. The family of 41_arith.md: the saturating sums and products, the rounding to the high half and the shifts. -/

namespace Sys2Proof.Machine

/-! ### The saturating writes (R13, R112 to R118) -/

/-- R13: the exact value clamped to 16 bits, sign-extended. -/
theorem sext16_sat16 (x : Int) : sext16 (sat16 x).val = BitVec.ofInt 32 (clamp 16 x) := by
  rw [← BitVec.ofInt_toInt (x := sext16 (sat16 x).val), sext16_toInt, sat16_toInt]
  rfl

section
variable {i : Instr} {s : State} {rd : RegNum} {x : Int}

/-! A command that ends in a saturating write: the register, the flag and the frame. -/

theorem exec_of_setSat32 (h : exec i s = .next (s.setSat32 rd x)) :
    exec i s = .next { s.setReg rd (BitVec.ofInt 32 (clamp 32 x)) with ov := s.ov || outOfRange 32 x } := by
  rw [h, State.setSat32, sat32_eq]
  rfl

theorem exec_of_setSat16 (h : exec i s = .next (s.setSat16 rd x)) :
    exec i s = .next { s.setReg rd (BitVec.ofInt 32 (clamp 16 x)) with ov := s.ov || outOfRange 16 x } := by
  have hov : (sat16 x).ov = outOfRange 16 x := sat16_ov x
  rw [h, State.setSat16, sext16_sat16, hov]
  rfl

end

/-- Settles O29: both commands end in the saturating 32-bit write, of the exact sum and of the exact difference. -/
theorem addAndSubtractSaturateAtThirtyTwoBits : Obligations.AddAndSubtractSaturateAtThirtyTwoBits :=
  fun _ _ _ _ => ⟨commandWord_eq_ofNat .., exec_of_setSat32 rfl, commandWord_eq_ofNat .., exec_of_setSat32 rfl⟩

/-- Settles O30: both commands end in the saturating 16-bit write, of the sum and of the difference of the low halves. -/
theorem addAndSubtractSaturateAtSixteenBits : Obligations.AddAndSubtractSaturateAtSixteenBits :=
  fun _ _ _ _ => ⟨commandWord_eq_ofNat .., exec_of_setSat16 rfl, commandWord_eq_ofNat .., exec_of_setSat16 rfl⟩

/-! ### The exact product (R111, R116 to R118) -/

/-- R116: the range of the product of two samples. -/
theorem sampleProduct_bounds (a b : Half) :
    -0x3FFF8000 ≤ a.toInt * b.toInt ∧ a.toInt * b.toInt ≤ 0x40000000 := by
  have ha : -0x8000 ≤ a.toInt := a.le_toInt
  have ha' : a.toInt ≤ 0x7FFF := Int.le_of_lt_add_one a.toInt_lt
  have hb : -0x8000 ≤ b.toInt := b.le_toInt
  have hb' : b.toInt ≤ 0x7FFF := Int.le_of_lt_add_one b.toInt_lt
  constructor <;> nlinarith

theorem sampleProduct_word_toInt (a b : Half) : (BitVec.ofInt 32 (a.toInt * b.toInt)).toInt = a.toInt * b.toInt := by
  obtain ⟨hlo, hhi⟩ := sampleProduct_bounds a b
  exact BitVec.toInt_ofInt_eq_self (by decide) (by omega) (by omega)

/-- Settles O31: the product of two samples is a word's value, so the word written has it. -/
theorem multiplyIsExact : Obligations.MultiplyIsExact := by
  intro rd rs1 rs2 s
  have hexact := sampleProduct_word_toInt ((s.reg rs1).setWidth 16) ((s.reg rs2).setWidth 16)
  refine ⟨commandWord_eq_ofNat .., _, rfl, hexact, ?_⟩
  rw [s16, s16, hexact]
  exact sampleProduct_bounds ..

/-- Settles O32: both commands end in the saturating 32-bit write of a value read wholly from the state before. -/
theorem accumulateSaturates : Obligations.AccumulateSaturates :=
  fun _ _ _ _ => ⟨commandWord_eq_ofNat .., exec_of_setSat32 rfl, commandWord_eq_ofNat .., exec_of_setSat32 rfl⟩

/-! ### Rounding to the high half (R119) -/

/-- R119: the addition of half a unit saturates for the operands from `0x7FFF8000` up. -/
theorem roundingSum_ov (v : Word) : (sat32 (s32 v + 0x8000)).ov = decide (0x7FFF8000 ≤ v.toInt) := by
  have hv := v.le_toInt
  rw [sat32_ov, s32, decide_eq_decide]
  omega

/-- R119: the high half of the sum, and of the greatest word where the sum saturates. -/
theorem roundedHighHalf_toInt (v : Word) :
    (asr (sat32 (s32 v + 0x8000)).val 16).toInt =
      if 0x7FFF8000 ≤ v.toInt then 0x7FFF else (v.toInt + 0x8000) / 2 ^ 16 := by
  have hv := v.le_toInt
  rw [asr_toInt, sat32_toInt, s32]
  split <;> omega

/-- The high half of a word fits a sample. -/
theorem asr_sixteen_inRange (v : Word) : outOfRange 16 (asr v 16).toInt = false := by
  have hv := v.le_toInt
  have hv' := v.toInt_lt
  rw [outOfRange_eq_false_iff, asr_toInt]
  omega

/-- Settles O33: the high half of the saturated sum, whose flag is that of the sum. -/
theorem roundTakesTheNearestHighHalf : Obligations.RoundTakesTheNearestHighHalf := by
  intro rd rs1 s x
  refine ⟨commandWord_formatDS 0x11 rd rs1, asr (sat32 (s32 (s.reg rs1) + 0x8000)).val 16, ?next,
    roundedHighHalf_toInt _, asr_sixteen_inRange _⟩
  case next => rw [← roundingSum_ov]; rfl

/-! ### The shifts (R12, R121, R122) -/

/-- R121: the count is the register modulo 32. -/
theorem shiftCount_eq (w : Word) : shiftCount w = w.toNat % 32 := by
  rw [shiftCount, BitVec.extractLsb'_toNat, Nat.shiftRight_zero]

theorem exec_shl32 (rd rs1 rs2 : RegNum) (s : State) :
    exec (.shl32 rd rs1 rs2) s = .next (s.setSat32 rd ((s.reg rs1).toInt * 2 ^ ((s.reg rs2).toNat % 32))) := by
  rw [← shiftCount_eq]
  rfl

/-- Settles O35: the saturating 32-bit write of the operand times the power of the count. -/
theorem leftShiftSaturates : Obligations.LeftShiftSaturates :=
  fun rd rs1 rs2 s => ⟨commandWord_eq_ofNat .., exec_of_setSat32 (exec_shl32 rd rs1 rs2 s)⟩

/-- Settles O36: `asr` by the count, the floor of the scale shift to the right, in a write that touches no flag. -/
theorem rightShiftIsFloorDivision : Obligations.RightShiftIsFloorDivision := by
  intro rd rs1 rs2 s
  refine ⟨commandWord_eq_ofNat .., asr (s.reg rs1) (shiftCount (s.reg rs2)), rfl, ?_⟩
  rw [← shiftCount_eq, ← shs_right_toInt, shs_right]

end Sys2Proof.Machine
end

section
/-! PROOFS. The family of 42_radix4.md: the engine on an impulse and on a constant run (R150). -/

namespace Sys2Proof.Machine

/-! ### A list of points given place by place (R35, R142) -/

/-- The `n` points that `f` gives at the places `0 .. n - 1`. -/
def pointsOf (n : Nat) (f : Nat → Cplx) : List Cplx := (List.range n).map f

@[simp] theorem pointsOf_length (n : Nat) (f : Nat → Cplx) : (pointsOf n f).length = n := by simp [pointsOf]

theorem point_pointsOf {n p : Nat} (h : p < n) (f : Nat → Cplx) : point (pointsOf n f) p = f p := by
  simp [point, pointsOf, List.getD_eq_getElem?_getD, h]

theorem pointsOf_congr {n : Nat} {f g : Nat → Cplx} (h : ∀ p, p < n → f p = g p) : pointsOf n f = pointsOf n g :=
  List.map_congr_left fun p hp => h p (List.mem_range.1 hp)

theorem eq_pointsOf {zs : List Cplx} {n : Nat} {f : Nat → Cplx} (hlen : zs.length = n)
    (h : ∀ p, p < n → point zs p = f p) : zs = pointsOf n f :=
  (map_point_range hlen).symm.trans (pointsOf_congr h)

theorem Sat.eq_mk_false {α : Type} {x : Sat α} {v : α} (hval : x.val = v) (hov : x.ov = false) : x = ⟨v, false⟩ := by
  cases x
  simp_all

/-- R142: a level over whole groups whose butterflies do not saturate is known from their shifted outputs. -/
theorem level_eq_pointsOf {cfg : Config} {n2 sh n : Nat} {f h : Nat → Cplx} (hdvd : 4 * n2 ∣ n)
    (hout : ∀ g j, j < n2 → (g + 1) * (4 * n2) ≤ n →
      (groupButterfly cfg n2 (pointsOf n f) g j).ov = false ∧
        ∀ k, k < 4 → cshift (quadOut (groupButterfly cfg n2 (pointsOf n f) g j).val k) sh = h (g * (4 * n2) + j + k * n2)) :
    level cfg (4 * n2) sh (pointsOf n f) = ⟨pointsOf n h, false⟩ := by
  have hdvd' : 4 * n2 ∣ (pointsOf n f).length := by rwa [pointsOf_length]
  refine Sat.eq_mk_false (eq_pointsOf (by simp) fun p hp => ?place) (Bool.eq_false_iff.2 fun hov => ?overflow)
  case place =>
    obtain ⟨g, j, k, hj, hk, hg, rfl⟩ := exists_place hdvd hp
    rw [level_point _ _ _ _ (by rwa [pointsOf_length]), levelPoint_place cfg sh _ hj hk]
    exact (hout g j hj hg).2 k hk
  case overflow =>
    obtain ⟨g, j, hj, hg, hsat⟩ := (level_ov_iff cfg sh hdvd').1 hov
    rw [pointsOf_length] at hg
    exact Bool.false_ne_true ((hout g j hj hg).1.symm.trans hsat)

/-- R142: the four points that a butterfly of whole groups reads. -/
theorem groupButterfly_pointsOf (cfg : Config) {n2 n g j : Nat} (f : Nat → Cplx) (hj : j < n2)
    (hg : (g + 1) * (4 * n2) ≤ n) :
    groupButterfly cfg n2 (pointsOf n f) g j =
      butterfly cfg (4 * n2) j (f (g * (4 * n2) + j)) (f (g * (4 * n2) + j + n2)) (f (g * (4 * n2) + j + 2 * n2))
        (f (g * (4 * n2) + j + 3 * n2)) := by
  rw [Nat.succ_mul] at hg
  rw [groupButterfly, point_pointsOf (by omega), point_pointsOf (by omega), point_pointsOf (by omega),
    point_pointsOf (by omega)]

/-! ### The outputs of a butterfly and the level shift (R143, R144) -/

/-- R143: the outputs of a butterfly of which 1, 2 and 3 are equal. -/
theorem quadOut_mk_equal (y z : Cplx) (k : Nat) : quadOut ⟨y, z, z, z⟩ k = if k = 0 then y else z := by
  unfold quadOut
  split <;> simp_all

@[simp] theorem cshift_zero_point (sh : Nat) : cshift ⟨0#32, 0#32⟩ sh = ⟨0#32, 0#32⟩ := by simp [cshift]

@[simp] theorem cshift_by_zero (z : Cplx) : cshift z 0 = z := by simp [cshift, asr]

theorem cshift_cshift (z : Cplx) (m n : Nat) : cshift (cshift z m) n = cshift z (m + n) := by
  simp only [cshift, asr_asr]

/-! ### An impulse (R150 (a)) -/

/-- `z` at the multiples of `n`, zero elsewhere. -/
def comb (n : Nat) (z : Cplx) (p : Nat) : Cplx := if p % n = 0 then z else ⟨0#32, 0#32⟩

/-- R143: a butterfly whose inputs are all zero has zero outputs, at every tap. -/
theorem butterfly_zero (cfg : Config) (n1 j : Nat) :
    butterfly cfg n1 j ⟨0#32, 0#32⟩ ⟨0#32, 0#32⟩ ⟨0#32, 0#32⟩ ⟨0#32, 0#32⟩ =
      ⟨⟨⟨0#32, 0#32⟩, ⟨0#32, 0#32⟩, ⟨0#32, 0#32⟩, ⟨0#32, 0#32⟩⟩, false⟩ := by
  simp [butterfly, butterflySums_impulse]

/-- R142, R143: in a comb of one tooth to a group, tap 0 copies the tooth to its four outputs and the other taps see zeros. -/
theorem groupButterfly_comb (cfg : Config) {n2 n g j : Nat} (z : Cplx) (hj : j < n2) (hg : (g + 1) * (4 * n2) ≤ n) :
    groupButterfly cfg n2 (pointsOf n (comb (4 * n2) z)) g j =
      ⟨⟨comb n2 z j, comb n2 z j, comb n2 z j, comb n2 z j⟩, false⟩ := by
  have hgap (m : Nat) (hpos : 0 < m) (hm : m < 4 * n2) : comb (4 * n2) z (g * (4 * n2) + m) = ⟨0#32, 0#32⟩ :=
    if_neg (by rw [Nat.mul_add_mod', Nat.mod_eq_of_lt hm]; omega)
  rw [groupButterfly_pointsOf cfg _ hj hg, Nat.add_assoc, Nat.add_assoc, Nat.add_assoc, hgap (j + n2) (by omega) (by omega),
    hgap (j + 2 * n2) (by omega) (by omega), hgap (j + 3 * n2) (by omega) (by omega)]
  obtain rfl | hpos := Nat.eq_zero_or_pos j
  · simp [comb, butterfly_tap_zero, butterflySums_impulse]
  · rw [hgap j hpos (by omega), butterfly_zero, comb, Nat.mod_eq_of_lt hj, if_neg hpos.ne']

/-- R142: a level makes a comb four times as dense. -/
theorem level_comb (cfg : Config) {n2 n : Nat} (sh : Nat) (z : Cplx) (hdvd : 4 * n2 ∣ n) :
    level cfg (4 * n2) sh (pointsOf n (comb (4 * n2) z)) = ⟨pointsOf n (comb n2 (cshift z sh)), false⟩ := by
  refine level_eq_pointsOf hdvd fun g j hj hg => ?_
  rw [groupButterfly_comb cfg z hj hg]
  refine ⟨rfl, fun k _ => ?_⟩
  have hmod : (g * (4 * n2) + j + k * n2) % n2 = j % n2 := by
    rw [show g * (4 * n2) + j + k * n2 = j + n2 * (4 * g + k) by ring, Nat.add_mul_mod_self_left]
  rw [quadOut_mk_equal, ite_self, comb, comb, hmod, apply_ite (cshift · sh), cshift_zero_point]

/-- R141: the levels down to groups of 4 spread a comb over every point, shifted by all the levels' shifts. -/
theorem levels_comb (cfg : Config) {n : Nat} (sched : List Nat) (z : Cplx) (hdvd : 4 ^ sched.length ∣ n) :
    levels cfg (4 ^ sched.length) sched (pointsOf n (comb (4 ^ sched.length) z)) =
      ⟨pointsOf n fun _ => cshift z sched.sum, false⟩ := by
  induction sched generalizing z with
  | nil =>
    have hflat : ∀ p, p < n → comb 1 z p = cshift z 0 := fun p _ => by rw [comb, if_pos p.mod_one, cshift_by_zero]
    exact congrArg (Sat.mk · false) (pointsOf_congr hflat)
  | cons sh sched ih =>
    rw [List.length_cons, pow_succ'] at hdvd ⊢
    rw [levels_cons, level_comb cfg sh z hdvd, Nat.mul_div_cancel_left _ (by decide),
      ih (cshift z sh) (dvd_of_mul_left_dvd hdvd), cshift_cshift]
    rfl

/-- R150 (a): the engine on an impulse gives a flat spectrum and does not saturate. -/
theorem fft4_impulse (cfg : Config) (sched : List Nat) {n : Nat} (hn : 4 ^ sched.length = n) (z : Cplx) :
    fft4 cfg sched (pointsOf n (comb n z)) = ⟨pointsOf n fun _ => cshift z sched.sum, false⟩ := by
  subst hn
  rw [fft4, pointsOf_length, levels_comb cfg sched z dvd_rfl]

/-! ### A constant run (R150 (b)) -/

/-- `z` below place `n`, zero from there on. -/
def block (n : Nat) (z : Cplx) (p : Nat) : Cplx := if p < n then z else ⟨0#32, 0#32⟩

/-- R150: both parts leave the two bits of headroom that a sum of four points needs. -/
def HasHeadroom (z : Cplx) : Prop :=
  -(2 ^ 29) ≤ z.re.toInt ∧ z.re.toInt < 2 ^ 29 ∧ -(2 ^ 29) ≤ z.im.toInt ∧ z.im.toInt < 2 ^ 29

theorem block_hasHeadroom {z : Cplx} (hz : HasHeadroom z) (n p : Nat) : HasHeadroom (block n z p) := by
  unfold block
  split
  · exact hz
  · exact by unfold HasHeadroom; decide

theorem Cplx.ext_toInt {z w : Cplx} (hre : z.re.toInt = w.re.toInt) (him : z.im.toInt = w.im.toInt) : z = w := by
  obtain ⟨re, im⟩ := z
  rw [Cplx.mk.injEq]
  exact ⟨BitVec.eq_of_toInt_eq hre, BitVec.eq_of_toInt_eq him⟩

theorem Quad.eq_mk {q : Quad} {y1 y2 y3 : Cplx} (h1 : q.y1 = y1) (h2 : q.y2 = y2) (h3 : q.y3 = y3) :
    q = ⟨q.y0, y1, y2, y3⟩ := by
  subst h1 h2 h3
  rfl

/-- R143: in the sums of four equal points, outputs 1, 2 and 3 cancel, and a shift by 2 takes output 0 back to the point. -/
theorem butterflySums_equal {z : Cplx} (hz : HasHeadroom z) :
    ∃ y, butterflySums z z z z = ⟨⟨y, ⟨0#32, 0#32⟩, ⟨0#32, 0#32⟩, ⟨0#32, 0#32⟩⟩, false⟩ ∧ cshift y 2 = z := by
  have hall : ∀ x ∈ [z, z, z, z], HasHeadroom x := by
    simp only [List.forall_mem_cons, List.not_mem_nil, false_implies, implies_true, and_true]
    exact ⟨hz, hz, hz, hz⟩
  obtain ⟨-, -, hexact⟩ := butterflyIsTheFourPointTransform
  obtain ⟨hov, h0re, h0im, h1re, h1im, h2re, h2im, h3re, h3im⟩ := hexact config 4 z z z z hall
  simp only [butterfly_tap_zero] at hov h0re h0im h1re h1im h2re h2im h3re h3im
  have h1 := Cplx.ext_toInt (w := ⟨0#32, 0#32⟩) (h1re.trans (by simp)) (h1im.trans (by simp))
  have h2 := Cplx.ext_toInt (w := ⟨0#32, 0#32⟩) (h2re.trans (by simp)) (h2im.trans (by simp))
  have h3 := Cplx.ext_toInt (w := ⟨0#32, 0#32⟩) (h3re.trans (by simp)) (h3im.trans (by simp))
  refine ⟨(butterflySums z z z z).val.y0, Sat.eq_mk_false ?outputs hov, Cplx.ext_toInt ?shiftRe ?shiftIm⟩
  case outputs => exact Quad.eq_mk h1 h2 h3
  case shiftRe => rw [cshift, asr_toInt]; omega
  case shiftIm => rw [cshift, asr_toInt]; omega

/-- R143: a butterfly of four equal points at any tap: the outputs that the tap multiplies are zero. -/
theorem butterfly_equal (cfg : Config) (n1 j : Nat) {z : Cplx} (hz : HasHeadroom z) :
    ∃ y, butterfly cfg n1 j z z z z = ⟨⟨y, ⟨0#32, 0#32⟩, ⟨0#32, 0#32⟩, ⟨0#32, 0#32⟩⟩, false⟩ ∧ cshift y 2 = z := by
  obtain ⟨y, hsums, hshift⟩ := butterflySums_equal hz
  refine ⟨y, ?_, hshift⟩
  by_cases hj : j = 0
  · rw [hj, butterfly_tap_zero, hsums]
  · simp [butterfly_tap_ne_zero cfg n1 hj, hsums]

/-- R142: a block of whole groups gives every group four equal points at each tap. -/
theorem groupButterfly_block (cfg : Config) {n2 n g j : Nat} (z : Cplx) (hj : j < n2) (hg : (g + 1) * (4 * n2) ≤ n) :
    let x := block n2 z (g * (4 * n2) + j)
    groupButterfly cfg n2 (pointsOf n (block (4 * n2) z)) g j = butterfly cfg (4 * n2) j x x x x := by
  intro x
  have hsame (m : Nat) (hm : m < 4 * n2) : block (4 * n2) z (g * (4 * n2) + m) = x := by
    refine if_congr ?_ rfl rfl
    obtain rfl | hpos := Nat.eq_zero_or_pos g
    · omega
    · have := Nat.le_mul_of_pos_left (4 * n2) hpos
      omega
  rw [groupButterfly_pointsOf cfg _ hj hg, Nat.add_assoc, Nat.add_assoc, Nat.add_assoc, hsame j (by omega),
    hsame (j + n2) (by omega), hsame (j + 2 * n2) (by omega), hsame (j + 3 * n2) (by omega)]

/-- R142: a level with shift 2 makes a block four times as short. -/
theorem level_block (cfg : Config) {n2 n : Nat} {z : Cplx} (hz : HasHeadroom z) (hdvd : 4 * n2 ∣ n) :
    level cfg (4 * n2) 2 (pointsOf n (block (4 * n2) z)) = ⟨pointsOf n (block n2 z), false⟩ := by
  refine level_eq_pointsOf hdvd fun g j hj hg => ?_
  obtain ⟨y, hy, hshift⟩ := butterfly_equal cfg (4 * n2) j (block_hasHeadroom hz n2 (g * (4 * n2) + j))
  rw [groupButterfly_block cfg z hj hg, hy]
  refine ⟨rfl, fun k _ => ?_⟩
  rw [quadOut_mk_equal]
  obtain rfl | hpos := Nat.eq_zero_or_pos k
  · rw [if_pos rfl, Nat.zero_mul, Nat.add_zero, hshift]
  · have hbeyond : n2 ≤ k * n2 := Nat.le_mul_of_pos_left n2 hpos
    rw [if_neg hpos.ne', cshift_zero_point, block, if_neg (by omega)]

/-- R141: `d` levels with shift 2 take a block down to its first point. -/
theorem levels_block (cfg : Config) {n d : Nat} {z : Cplx} (hz : HasHeadroom z) (hdvd : 4 ^ d ∣ n) :
    levels cfg (4 ^ d) (List.replicate d 2) (pointsOf n (block (4 ^ d) z)) = ⟨pointsOf n (block 1 z), false⟩ := by
  induction d with
  | zero => rfl
  | succ d ih =>
    rw [pow_succ'] at hdvd ⊢
    rw [List.replicate_succ, levels_cons, level_block cfg hz hdvd, Nat.mul_div_cancel_left _ (by decide),
      ih (dvd_of_mul_left_dvd hdvd)]
    rfl

/-- R150 (b): the engine on a constant run leaves its point 0 alone, and does not saturate. -/
theorem fft4_constant (cfg : Config) {d n : Nat} (hn : 4 ^ d = n) {z : Cplx} (hz : HasHeadroom z) :
    fft4 cfg (List.replicate d 2) (pointsOf n fun _ => z) = ⟨pointsOf n (block 1 z), false⟩ := by
  subst hn
  have hblock : pointsOf (4 ^ d) (fun _ => z) = pointsOf (4 ^ d) (block (4 ^ d) z) :=
    pointsOf_congr fun p hp => (if_pos hp).symm
  rw [hblock, fft4, pointsOf_length, levels_block cfg hz dvd_rfl]

/-- R146: the peak of zeros. -/
theorem peakOf_replicate_zero (n : Nat) : peakOf (List.replicate n ⟨0#32, 0#32⟩) = 0 := by
  induction n with
  | zero => rfl
  | succ n ih => rw [List.replicate_succ, peakOf_cons, ih]; rfl

/-- R146: the peak of one point followed by zeros. -/
theorem peakOf_block_one {n : Nat} (hn : 0 < n) (z : Cplx) : peakOf (pointsOf n (block 1 z)) = mag z.re ||| mag z.im := by
  obtain ⟨m, rfl⟩ := Nat.exists_eq_succ_of_ne_zero hn.ne'
  have hzeros : (List.range m).map (block 1 z ∘ Nat.succ) = List.replicate m ⟨0#32, 0#32⟩ :=
    List.eq_replicate_iff.2 ⟨by simp, by simp [block]⟩
  rw [pointsOf, List.range_succ_eq_map, List.map_cons, List.map_map, hzeros, peakOf_cons, peakOf_replicate_zero]
  simp [block, peakOf, pointWords]

/-! ### The two commands on such runs (R147, R148) -/

/-- R147: `FFT4L` on a legal run stores what the engine computes from it. -/
theorem exec_fft4l_of_legalRun {rs1 : RegNum} {s : State} (hrun : legalRun (s.reg rs1) 512) :
    let base := (s.reg rs1).toNat
    exec (.fft4l rs1) s = .next (s.storeTransform base (fft4 config [2, 2, 2, 2] (s.points base 256)) 8) :=
  withRun_of_legalRun hrun (.fft4l rs1) (fft4lEffect config)

/-- R148: below the threshold there is no pre-shift. -/
theorem shortPreShift_eq_zero {peak : BitVec 31} (h : peak.toNat < 2 ^ 28) :
    shortPreShift config (BitVec.ofNat 32 peak.toNat) = 0 :=
  if_pos (by rwa [BitVec.toNat_ofNat, Nat.mod_eq_of_lt (by omega)])

/-- R148: `FFT4S` on a legal run with a peak below the threshold stores what the engine computes from it. -/
theorem exec_fft4s_of_legalRun {rs1 : RegNum} {s : State} (hrun : legalRun (s.reg rs1) 128) (hpeak : s.peak.toNat < 2 ^ 28) :
    let base := (s.reg rs1).toNat
    exec (.fft4s rs1) s = .next (s.storeTransform base (fft4 config [2, 2, 2] (s.points base 64)) 6) := by
  intro base
  refine (withRun_of_legalRun hrun (.fft4s rs1) (fft4sEffect config)).trans (congrArg _ ?_)
  rw [fft4sEffect_eq, ← shortPreShift_eq, shortPreShift_eq_zero hpeak]
  simp [base]

/-- R146: points that are known place by place and did not saturate, stored as a run. -/
theorem storeTransform_pointsOf (s : State) (base n : Nat) (f : Nat → Cplx) (e : Word) :
    let t := s.storeTransform base ⟨pointsOf n f, false⟩ e
    (∀ p, p < n → t.bufWord (base + 2 * p) = (f p).re ∧ t.bufWord (base + 2 * p + 1) = (f p).im) ∧ t.ov = s.ov := by
  obtain ⟨hwords, hov, -⟩ := storeTransform_spec s base (out := ⟨pointsOf n f, false⟩) e (pointsOf_length n f)
  refine ⟨fun p hp => ?_, hov.trans (Bool.or_false _)⟩
  rw [← point_pointsOf hp f]
  exact hwords p hp

/-- R150 (a): the engine's output stored for a run of `n` points of which only point 0 is not zero. -/
theorem storeTransform_impulse {s : State} {base n : Nat} (sched : List Nat) (e : Word) (hn : 4 ^ sched.length = n)
    (hzero : ∀ w, 2 ≤ w → w < 2 * n → s.bufWord (base + w) = 0) :
    let t := s.storeTransform base (fft4 config sched (s.points base n)) e
    t.ov = s.ov ∧ ∀ p, p < n →
      t.bufWord (base + 2 * p) = asr (s.bufWord base) sched.sum ∧
      t.bufWord (base + 2 * p + 1) = asr (s.bufWord (base + 1)) sched.sum := by
  have hpoints : s.points base n = pointsOf n (comb n ⟨s.bufWord base, s.bufWord (base + 1)⟩) := by
    refine eq_pointsOf (by simp) fun p hp => ?_
    rw [s.points_point hp, comb, Nat.mod_eq_of_lt hp]
    split
    · next h => subst h; rfl
    · next h => rw [hzero _ (by omega) (by omega), Nat.add_assoc, hzero _ (by omega) (by omega)]; rfl
  rw [hpoints, fft4_impulse config sched hn]
  exact (storeTransform_pointsOf s base n _ e).symm

/-- R150 (b): the engine's output stored for a run of `n` equal points. -/
theorem storeTransform_constant {s : State} {base d n : Nat} {u v : Word} (e : Word) (hn : 4 ^ d = n)
    (hz : HasHeadroom ⟨u, v⟩)
    (hall : ∀ p, p < n → s.bufWord (base + 2 * p) = u ∧ s.bufWord (base + 2 * p + 1) = v) :
    let t := s.storeTransform base (fft4 config (List.replicate d 2) (s.points base n)) e
    t.bufWord base = u ∧ t.bufWord (base + 1) = v ∧ (∀ w, 2 ≤ w → w < 2 * n → t.bufWord (base + w) = 0) ∧
      t.peak = mag u ||| mag v ∧ t.ov = s.ov := by
  have hpoints : s.points base n = pointsOf n fun _ => ⟨u, v⟩ := by
    refine eq_pointsOf (by simp) fun p hp => ?_
    obtain ⟨hre, him⟩ := hall p hp
    rw [s.points_point hp, hre, him]
  have hpos : 0 < n := by rw [← hn]; positivity
  rw [hpoints, fft4_constant config hn hz]
  obtain ⟨hwords, hov⟩ := storeTransform_pointsOf s base n (block 1 ⟨u, v⟩) e
  obtain ⟨hre, him⟩ := hwords 0 hpos
  refine ⟨hre, him, fun w h2 hw => ?_, peakOf_block_one hpos _, hov⟩
  obtain ⟨p, rfl | rfl⟩ := Nat.even_or_odd' w
  all_goals
    obtain ⟨hre, him⟩ := hwords p (by omega)
    rw [block, if_neg (by omega)] at hre him
  · exact hre
  · exact him

/-- Settles O55: both commands store the engine's output, which on an impulse is its point 0 shifted at every level. -/
theorem impulseGivesAFlatSpectrum : Obligations.ImpulseGivesAFlatSpectrum :=
  ⟨fun _ _ hrun hzero => ⟨_, exec_fft4l_of_legalRun hrun, storeTransform_impulse [2, 2, 2, 2] 8 rfl hzero⟩,
    fun _ _ hrun hpeak hzero => ⟨_, exec_fft4s_of_legalRun hrun hpeak, storeTransform_impulse [2, 2, 2] 6 rfl hzero⟩⟩

/-- Settles O56: both commands store the engine's output, which on a constant run is its point 0 and zeros. -/
theorem constantRunCollapsesToPointZero : Obligations.ConstantRunCollapsesToPointZero := by
  intro rs1 s u v hu hu' hv hv'
  have hz : HasHeadroom ⟨u, v⟩ := ⟨hu.le, hu', hv.le, hv'⟩
  exact ⟨fun hrun hall => ⟨_, exec_fft4l_of_legalRun hrun, storeTransform_constant (d := 4) 8 rfl hz hall⟩,
    fun hrun hpeak hall => ⟨_, exec_fft4s_of_legalRun hrun hpeak, storeTransform_constant (d := 3) 6 rfl hz hall⟩⟩

end Sys2Proof.Machine
end

section
/-! PROOFS. The family of 43_mixed_radix.md: the normalisation shift against `PEAK`, and an impulse through `MIXFFT` (R177). -/

namespace Sys2Proof.Machine

/-! ### The normalisation shift against `PEAK` (R171) -/

/-- R19, R29: the count of a peak is `n` or more exactly when the peak is below `2^(31 - n)`. -/
theorem le_clrsb_peak_iff {peak : BitVec 31} {n : Nat} (hn : n ≤ 31) :
    n ≤ clrsb (BitVec.ofNat 32 peak.toNat) ↔ peak.toNat < 2 ^ (31 - n) := by
  rw [le_clrsb_iff _ hn, signFolded_peak]

/-- R171: the default instance's headroom is 4 and its floor -16 (R9). -/
theorem mixShift_config (p : Word) : mixShift config p = max (4 - (clrsb p : Int)) (-16) := rfl

/-- R171: in the octave of the count `c`, above the floor, the shift is `4 - c`. -/
theorem mixShift_of_octave {peak : BitVec 31} {c : Nat} (hc : c ≤ 20) (hlo : 2 ^ (30 - c) ≤ peak.toNat)
    (hhi : peak.toNat < 2 ^ (31 - c)) : mixShift config (BitVec.ofNat 32 peak.toNat) = 4 - (c : Int) := by
  have hge : c ≤ clrsb (BitVec.ofNat 32 peak.toNat) := (le_clrsb_peak_iff (by omega)).2 hhi
  have hlt : ¬c + 1 ≤ clrsb (BitVec.ofNat 32 peak.toNat) := by
    rw [le_clrsb_peak_iff (by omega), show 31 - (c + 1) = 30 - c by omega]
    exact Nat.not_lt.2 hlo
  rw [mixShift_config]
  omega

/-- R171: from the count 20 on, the shift is the floor. -/
theorem mixShift_of_small {peak : BitVec 31} (h : peak.toNat < 2 ^ 11) :
    mixShift config (BitVec.ofNat 32 peak.toNat) = -16 := by
  have hge : 20 ≤ clrsb (BitVec.ofNat 32 peak.toNat) := (le_clrsb_peak_iff (by decide)).2 h
  rw [mixShift_config]
  omega

/-- Settles O59: every row of the table is the octave of one count, but the last, which is the floor. -/
theorem mixedShiftTable : Obligations.MixedShiftTable := by
  intro peak p r
  exact ⟨fun hlo => mixShift_of_octave (c := 0) (by decide) hlo peak.isLt,
    fun hlo hhi => mixShift_of_octave (c := 1) (by decide) hlo (Nat.lt_succ_of_le hhi),
    fun hlo hhi => mixShift_of_octave (c := 2) (by decide) hlo (Nat.lt_succ_of_le hhi),
    fun hlo hhi => mixShift_of_octave (c := 3) (by decide) hlo (Nat.lt_succ_of_le hhi),
    fun hlo hhi => mixShift_of_octave (c := 4) (by decide) hlo (Nat.lt_succ_of_le hhi),
    fun c _ hc hlo hhi => mixShift_of_octave (by omega) hlo (Nat.lt_of_le_pred (by positivity) hhi),
    fun hhi => mixShift_of_small (Nat.lt_succ_of_le hhi)⟩

/-! ### The radix-2 stage on an impulse (R172) -/

/-- R17: a sum with the zero point is the other point and does not saturate. -/
@[simp] theorem cadd_zero_point (a : Cplx) : cadd a ⟨0#32, 0#32⟩ = ⟨a, false⟩ := by simp [cadd]

/-- R17: a point less the zero point is that point and does not saturate. -/
@[simp] theorem csub_zero_point (a : Cplx) : csub a ⟨0#32, 0#32⟩ = ⟨a, false⟩ := by simp [csub]

@[simp] theorem cshs_zero_point (r : Int) : cshs ⟨0#32, 0#32⟩ r = ⟨⟨0#32, 0#32⟩, false⟩ := by simp [cshs]

/-- Below its period a comb has its one tooth at place 0: there it is an impulse. -/
theorem comb_of_lt {n p : Nat} (hp : p < n) (z : Cplx) : comb n z p = if p = 0 then z else ⟨0#32, 0#32⟩ := by
  rw [comb, Nat.mod_eq_of_lt hp]

/-- R172: on an impulse, iteration 0 stores the shifted point 0 in both halves, and the others see zeros. -/
theorem radix2Pair_impulse (cfg : Config) (r : Int) (z : Cplx) {n : Nat} (hn : n < 256) :
    let y := cshs z r
    radix2Pair cfg r (pointsOf 512 (comb 512 z)) n =
      ⟨(comb 256 y.val n, comb 256 y.val n), decide (n = 0) && y.ov⟩ := by
  intro y
  have hlow : point (pointsOf 512 (comb 512 z)) n = if n = 0 then z else ⟨0#32, 0#32⟩ := by
    rw [point_pointsOf (by omega), comb_of_lt (by omega)]
  have hhigh : point (pointsOf 512 (comb 512 z)) (n + 256) = ⟨0#32, 0#32⟩ := by
    rw [point_pointsOf (by omega), comb_of_lt (by omega), if_neg (by omega)]
  rw [radix2Pair, hlow, hhigh, comb_of_lt hn]
  obtain rfl | hpos := Nat.eq_zero_or_pos n
  · simp [y]
  · simp [hpos.ne']

/-- R172: the radix-2 stage on an impulse leaves the shifted impulse in both halves, and saturates when its shift does. -/
theorem radix2_impulse (cfg : Config) (r : Int) (z : Cplx) :
    let y := cshs z r
    let h := radix2 cfg r (pointsOf 512 (comb 512 z))
    h.val.1 = pointsOf 256 (comb 256 y.val) ∧ h.val.2 = pointsOf 256 (comb 256 y.val) ∧ h.ov = y.ov := by
  intro y h
  refine ⟨eq_pointsOf (radix2_low_length ..) fun n hn => ?low, eq_pointsOf (radix2_high_length ..) fun n hn => ?high,
    Bool.eq_iff_iff.2 ((radix2_ov ..).trans ⟨fun ⟨n, hn, hov⟩ => ?sound, fun hov => ⟨0, by decide, ?complete⟩⟩)⟩
  case low => rw [(radix2_point cfg r _ hn).1, radix2Pair_impulse cfg r z hn]
  case high => rw [(radix2_point cfg r _ hn).2, radix2Pair_impulse cfg r z hn]
  case sound =>
    rw [radix2Pair_impulse cfg r z hn, Bool.and_eq_true] at hov
    exact hov.2
  case complete =>
    rw [radix2Pair_impulse cfg r z (by decide)]
    exact hov

/-! ### The flat spectrum (R177) -/

/-- R174: two flat halves shuffle into a flat run. -/
theorem interleave_flat (z : Cplx) :
    interleave (pointsOf 256 fun _ => z) (pointsOf 256 fun _ => z) = pointsOf 512 fun _ => z := by
  refine eq_pointsOf (interleave_length ..) fun q hq => ?_
  obtain ⟨p, rfl | rfl⟩ := Nat.even_or_odd' q
  · rw [(point_interleave _ _ (show p < 256 by omega)).1, point_pointsOf (by omega)]
  · rw [(point_interleave _ _ (show p < 256 by omega)).2, point_pointsOf (by omega)]

/-- R177: an impulse leaves the radix-2 stage as one impulse in each half, and the engine spreads each over its half. -/
theorem mixOutput_impulse (r : Int) (z : Cplx) :
    mixOutput config r (pointsOf 512 (comb 512 z)) = ⟨pointsOf 512 fun _ => cshift (cshs z r).val 8, (cshs z r).ov⟩ := by
  have hengine : fft4 config (longSchedule config) (pointsOf 256 (comb 256 (cshs z r).val)) =
      ⟨pointsOf 256 fun _ => cshift (cshs z r).val 8, false⟩ := fft4_impulse config [2, 2, 2, 2] rfl _
  obtain ⟨hlow, hhigh, hov⟩ := radix2_impulse config r z
  rw [mixOutput, mixTransform, hlow, hhigh, hov, hengine, interleave_flat, Bool.or_false, Bool.or_false]

/-- R146: the peak of equal points is that of one of them. -/
theorem peakOf_replicate_succ (n : Nat) (z : Cplx) : peakOf (List.replicate (n + 1) z) = mag z.re ||| mag z.im := by
  induction n with
  | zero => simp [peakOf, pointWords]
  | succ n ih =>
    rw [List.replicate_succ, peakOf_cons, ih]
    simp [peakOf, pointWords]

/-- R146: the peak of a flat run. -/
theorem peakOf_flat {n : Nat} (hn : 0 < n) (z : Cplx) : peakOf (pointsOf n fun _ => z) = mag z.re ||| mag z.im := by
  obtain ⟨m, rfl⟩ := Nat.exists_eq_succ_of_ne_zero hn.ne'
  rw [pointsOf, List.map_const', List.length_range, peakOf_replicate_succ]

/-- R35: a run whose words from the third on are zero is an impulse. -/
theorem points_impulse {s : State} {base n : Nat} (hzero : ∀ w, 2 ≤ w → w < 2 * n → s.bufWord (base + w) = 0) :
    s.points base n = pointsOf n (comb n ⟨s.bufWord base, s.bufWord (base + 1)⟩) := by
  refine eq_pointsOf (s.points_length base n) fun p hp => ?_
  rw [s.points_point hp, comb_of_lt hp]
  obtain rfl | hpos := Nat.eq_zero_or_pos p
  · rfl
  · rw [if_neg hpos.ne', hzero _ (by omega) (by omega), Nat.add_assoc, hzero _ (by omega) (by omega)]
    rfl

/-! ### `MIXFFT` on an impulse (R170, R175, R177) -/

/-- R170: `MIXFFT` on a legal run stores its output with the exponent of the normalisation and of the engine. -/
theorem exec_mixfft_of_legalRun {rs1 : RegNum} {s : State} (hrun : legalRun (s.reg rs1) 1024) :
    let base := (s.reg rs1).toNat
    let r : Int := max (4 - clrsb (BitVec.ofNat 32 s.peak.toNat)) (-16)
    exec (.mixfft rs1) s =
      .next (s.storeTransform base (mixOutput config r (s.points base 512)) (BitVec.ofInt 32 (r + 8))) :=
  (withRun_of_legalRun hrun (.mixfft rs1) (mixfftEffect config)).trans (congrArg _ (mixfftEffect_eq (s.reg rs1).toNat s))

/-- R175: a flat run stored. -/
theorem storeTransform_flat (s : State) (base : Nat) {n : Nat} (hn : 0 < n) (z : Cplx) (ov : Bool) (e : Word) :
    let t := s.storeTransform base ⟨pointsOf n fun _ => z, ov⟩ e
    t.ov = (s.ov || ov) ∧ t.exp = e ∧ t.peak = mag z.re ||| mag z.im ∧
      ∀ p, p < n → t.bufWord (base + 2 * p) = z.re ∧ t.bufWord (base + 2 * p + 1) = z.im := by
  obtain ⟨hplaces, hov, -, hexp, -, -⟩ :=
    storeTransform_spec s base (out := ⟨pointsOf n fun _ => z, ov⟩) e (pointsOf_length n _)
  refine ⟨hov, hexp, peakOf_flat hn z, fun p hp => ?_⟩
  have hpoint := hplaces p hp
  rwa [point_pointsOf hp] at hpoint

/-- Settles O57: `MIXFFT` stores its output, which on an impulse is its point 0, normalised and shifted at every level. -/
theorem mixedImpulseGivesAFlatSpectrum : Obligations.MixedImpulseGivesAFlatSpectrum := by
  intro rs1 s hrun hzero r u v
  have hexec := exec_mixfft_of_legalRun hrun
  simp only [points_impulse (n := 512) hzero, mixOutput_impulse] at hexec
  obtain ⟨hov, hexp, hpeak, hplaces⟩ :=
    storeTransform_flat s (s.reg rs1).toNat (n := 512) (by decide) ⟨asr u.val 8, asr v.val 8⟩ (u.ov || v.ov)
      (BitVec.ofInt 32 (r + 8))
  exact ⟨_, hexec, hov.trans (Bool.or_assoc ..).symm, hexp, hpeak, hplaces⟩

end Sys2Proof.Machine
end

section
/-! PROOFS. The family of 45_move_system.md: the constants and moves, `NOP` and `CLROV`, and the special register numbers that
do not exist. -/

namespace Sys2Proof.Machine

/-! ### The words (R82, R83) -/

/-- R83, R84: the word of a command of format `DI`. -/
theorem commandWord_formatDI (op : BitVec 6) (rd : RegNum) (imm : Half) :
    commandWord op rd 0 0 imm = BitVec.ofNat 32 (op.toNat * 2 ^ 26 + rd.val * 2 ^ 23 + imm.toNat) := by
  rw [commandWord_eq_ofNat]
  simp

/-! ### Constants and moves (R191 to R193) -/

/-- R191: `LI` writes the sign-extended immediate. -/
theorem exec_li (rd : RegNum) (imm : Half) (s : State) :
    exec (.li rd imm) s = .next (s.setReg rd (BitVec.ofInt 32 imm.toInt)) := rfl

/-- R193: `MOV` copies. -/
theorem exec_mov (rd rs1 : RegNum) (s : State) : exec (.mov rd rs1) s = .next (s.setReg rd (s.reg rs1)) := rfl

/-- R192: a half above the low half of a word, by arithmetic. -/
theorem append_setWidth_eq_ofNat (h : Half) (v : Word) :
    h ++ v.setWidth 16 = BitVec.ofNat 32 (h.toNat * 2 ^ 16 + v.toNat % 2 ^ 16) := by
  have hh := h.isLt
  apply BitVec.eq_of_toNat_eq
  rw [BitVec.toNat_append, BitVec.toNat_setWidth, BitVec.toNat_ofNat,
    ← Nat.shiftLeft_add_eq_or_of_lt (Nat.mod_lt _ (by decide)), Nat.shiftLeft_eq]
  omega

/-- Settles O38: each command writes its destination alone, with the word of its format. -/
theorem constantsAndMoves : Obligations.ConstantsAndMoves := by
  intro rd rs1 imm s
  rw [← append_setWidth_eq_ofNat]
  exact ⟨commandWord_formatDI 0x01 rd imm, exec_li rd imm s, commandWord_formatDI 0x02 rd imm, exec_lih rd imm s,
    commandWord_formatDS 0x15 rd rs1, exec_mov rd rs1 s⟩

/-! ### `NOP` and `CLROV` (R190, R197) -/

theorem exec_nop (s : State) : exec .nop s = .next s := rfl

theorem exec_clrov (s : State) : exec .clrov s = .next (s.setOv false) := rfl

/-- Settles O37: both words have nothing but their opcode. -/
theorem nopAndClearOverflow : Obligations.NopAndClearOverflow :=
  ⟨commandWord_eq_ofNat .., commandWord_eq_ofNat .., fun s => ⟨exec_nop s, exec_clrov s⟩⟩

/-! ### Special register numbers out of reach (R195, R196) -/

/-- R195: a number above 3 names no special register. -/
theorem exec_mfs_of_none {n : Half} (h : readableSreg n = none) (rd : RegNum) (s : State) :
    exec (.mfs rd n) s = .next (s.raiseFault .badSpecialRegister (encode (.mfs rd n))) := by
  simp only [exec, execMfs, h, faultBy]

/-- R196: a number above 2 names none that can be written. -/
theorem exec_mts_of_none {n : Half} (h : writableSreg n = none) (rs1 : RegNum) (s : State) :
    exec (.mts n rs1) s = .next (s.raiseFault .badSpecialRegister (encode (.mts n rs1))) := by
  simp only [exec, execMts, h, faultBy]

/-- Settles O41: the number is looked up before anything is read or written. -/
theorem badSpecialRegisterTakesFaultFour : Obligations.BadSpecialRegisterTakesFaultFour :=
  fun r n s => ⟨fun h => exec_mfs_of_none ((readableSreg_eq_none_iff n).2 h) r s,
    fun h => exec_mts_of_none ((writableSreg_eq_none_iff n).2 h) r s⟩

end Sys2Proof.Machine
end

section
/-! PROOFS. The family of 60_exceptions.md: what a fault records, and that only `Reset` clears the fault latch. -/

namespace Sys2Proof.Machine

/-! ### Taking the fault (R211, R212) -/

/-- R211: the codes of the causes that a command's operand checks can raise. -/
theorem code_mem_of_raisable {i : Instr} {c : Cause} (h : raisable i c = true) : c.code ∈ [2, 3, 4] := by
  cases c with
  | illegalCommand => contradiction
  | bufferRange | oddBase | badSpecialRegister => decide

/-- Settles O19: a fault writes the latch alone, and a command that completes leaves it. -/
theorem commandFaultIsPrecise : Obligations.CommandFaultIsPrecise := by
  intro i s t h
  obtain ⟨c, hc, rfl⟩ | hc := exec_cases h
  · exact .inr ⟨rfl, code_mem_of_raisable hc⟩
  · exact .inl hc.latch

/-- R212: a word that raises a fault is recorded whole, be it no command (R87) or a command with bad operands (R85). -/
theorem hostCmd_takes_fault {w : Word} {s t : State} (hs : s.err = false) (h : hostCmd w s = .next t) (ht : t.err = true) :
    t = { s with err := true, cause := t.cause, ecmd := w } ∧ t.cause ∈ [1, 2, 3, 4] := by
  obtain ⟨herr, -⟩ | ⟨-, -, rfl⟩ | ⟨-, i, hd, hi⟩ := hostCmd_cases h
  · simp [hs] at herr
  · exact ⟨rfl, List.mem_cons_self⟩
  · obtain ⟨hlatch, -, -⟩ | ⟨hfault, hcause⟩ := commandFaultIsPrecise i s t hi
    · simp [hlatch, hs] at ht
    · rw [encode_of_decode hd] at hfault
      exact ⟨hfault, List.mem_cons_of_mem 1 hcause⟩

/-- Settles O20: the step presents the word to the issued state. -/
theorem faultRecordsThePresentedWord : Obligations.FaultRecordsThePresentedWord :=
  fun s _ _ rest hp herr h ht => hostCmd_takes_fault (s := s.issue rest) herr ((step_issue hp).symm.trans h) ht

/-! ### Idling (R222, R231) -/

/-- Settles O10: an idle step, the model's choice of log 4. -/
theorem idleCoreHoldsItsState : Obligations.IdleCoreHoldsItsState := fun _ => step_idle

/-! ### What a step does to the host's list (R60, R61) -/

/-- R23: no command word touches the host's list, be it refused, faulting or executed. -/
theorem hostCmd_pending {w : Word} {s t : State} (h : hostCmd w s = .next t) : t.pending = s.pending := by
  obtain ⟨-, rfl⟩ | ⟨-, -, rfl⟩ | ⟨-, i, -, hi⟩ := hostCmd_cases h
  · rfl
  · rfl
  · obtain ⟨-, -, -, -, hpending, -⟩ := specialRegisterFrame i s t hi
    exact hpending

@[simp] theorem State.writeSreg_pending (s : State) (r : WritableSReg) (v : Word) :
    (s.writeSreg r v).pending = s.pending := by
  cases r <;> rfl

theorem transact_pending {x : Transaction} {s t : State} (h : transact x s = .next t) : t.pending = s.pending := by
  cases x with
  | cmd w => exact hostCmd_pending h
  | writeSreg r v =>
    obtain rfl := Host.Outcome.next.inj h
    exact s.writeSreg_pending r v
  | reset | readReg | readSreg | readBuf | writeReg | writeBuf =>
    obtain rfl := Host.Outcome.next.inj h
    rfl

/-- R61: a step uses up the host's next transaction, if there is one. -/
theorem step_pending {s t : State} (h : step s = .next t) : t.pending = s.pending.tail := by
  cases hp : s.pending with
  | nil =>
    obtain rfl := Host.Outcome.next.inj ((step_idle hp).symm.trans h)
    exact hp
  | cons x rest => exact transact_pending (s := s.issue rest) ((step_issue hp).symm.trans h)

/-! ### Only `Reset` leaves the faulted condition (R214, R215) -/

/-- R212: the fault latch `ERR`, `CAUSE` and `ECMD`, as one value. -/
def State.latch (s : State) : Bool × BitVec 4 × Word := (s.err, s.cause, s.ecmd)

theorem State.latch_eq_iff {s t : State} : t.latch = s.latch ↔ t.err = s.err ∧ t.cause = s.cause ∧ t.ecmd = s.ecmd := by
  simp only [State.latch, Prod.mk.injEq]

/-- R60, R214: with a fault latched, every transaction but `Reset` leaves the latch. -/
theorem transact_latch {x : Transaction} {s t : State} (herr : s.err = true) (hx : x ≠ .reset)
    (h : transact x s = .next t) : t.latch = s.latch := by
  cases x with
  | reset => contradiction
  | cmd w => rw [← Host.Outcome.next.inj ((hostCmd_of_err herr w).symm.trans h)]
  | writeSreg r v =>
    obtain rfl := Host.Outcome.next.inj h
    exact State.latch_eq_iff.2 (s.writeSreg_latch r v)
  | readReg | readSreg | readBuf | writeReg | writeBuf =>
    obtain rfl := Host.Outcome.next.inj h
    rfl

theorem step_latch {s t : State} (herr : s.err = true) (hreset : s.pending.head? ≠ some .reset) (h : step s = .next t) :
    t.latch = s.latch := by
  obtain rfl | ⟨x, rest, hp, hx⟩ := step_cases h
  · rfl
  · refine transact_latch (s := s.issue rest) herr ?_ hx
    rintro rfl
    exact hreset (by rw [hp, List.head?_cons])

/-- Settles O17: the step leaves the whole latch. -/
theorem onlyResetClearsTheFault : Obligations.OnlyResetClearsTheFault := by
  intro s t herr hreset h
  rw [← herr]
  exact State.latch_eq_iff.1 (step_latch herr hreset h)

/-! ### A run of steps (R213) -/

theorem run_succ {s u : State} (h : step s = .next u) (k : Nat) :
    Host.Core.run Sys2Proof.core (k + 1) s = Host.Core.run Sys2Proof.core k u := by
  have hcore : Sys2Proof.core.step s = .next u := h
  simp only [Host.Core.run, hcore]

/-- No `Reset` among the next `k + 1` transactions: not the next one, and none among the `k` after it. -/
theorem reset_notMem_take_succ {l : List Transaction} {k : Nat} (h : Transaction.reset ∉ l.take (k + 1)) :
    l.head? ≠ some .reset ∧ Transaction.reset ∉ l.tail.take k := by
  cases l with
  | nil => simp
  | cons x rest =>
    rw [List.take_succ_cons, List.mem_cons, not_or] at h
    obtain ⟨hx, hrest⟩ := h
    exact ⟨fun hhead => hx (Option.some.inj hhead).symm, hrest⟩

/-- R213: the latch along a run, step by step. -/
theorem run_latch {k : Nat} {s t : State} (herr : s.err = true) (hreset : Transaction.reset ∉ s.pending.take k)
    (h : Host.Core.run Sys2Proof.core k s = .next t) : t.latch = s.latch := by
  induction k generalizing s with
  | zero =>
    obtain rfl := Host.Outcome.next.inj h
    rfl
  | succ k ih =>
    obtain ⟨u, hu⟩ := stepAlwaysAnswersANextState s
    obtain ⟨hhead, htail⟩ := reset_notMem_take_succ hreset
    have hlatch : u.latch = s.latch := step_latch herr hhead hu
    obtain ⟨huerr, -, -⟩ := State.latch_eq_iff.1 hlatch
    rw [run_succ hu] at h
    rw [← step_pending hu] at htail
    exact (ih (huerr.trans herr) htail h).trans hlatch

/-- Settles O21: by induction on the length of the run. -/
theorem firstFaultIsKeptUntilReset : Obligations.FirstFaultIsKeptUntilReset := by
  intro k s t herr hreset h
  rw [← herr]
  exact State.latch_eq_iff.1 (run_latch herr hreset h)

end Sys2Proof.Machine
end
